-- ==== Sys2Proof/Word.lean ====
section
/-! DEFINITION. The word types of the block (spec/10_state.md, spec/20_memory.md, spec/30_encoding.md): only what the spec
treats as a fixed number of bits is a bit vector here. -/

namespace Sys2Proof

/-- One byte of a debug window (R60, R64). -/
abbrev Byte := BitVec 8

/-- One 16-bit word of a backing store (R61, R62), and a debug address (R60). -/
abbrev Word := BitVec 16

/-- A counter of `W_CNT` = 16 bits, unsigned (R8, R20, R21, R22; decision D2). -/
abbrev Counter := BitVec 16

/-- A clock count of 11 bits: the argument of `STEP` and the register `seq.rem` (R41, R100, R130). -/
abbrev Clocks := BitVec 11

/-- A command word (R91, R97). -/
abbrev CmdWord := BitVec 32

/-- A micro-operation word (R91, R100). -/
abbrev UopWord := BitVec 16

/-- The configuration snapshot packed into one word (R91, R96). -/
abbrev CfgWord := BitVec 16

end Sys2Proof
end

