-- ==== Sys2Proof/Config.lean ====
section
/-! DEFINITION. What is fixed for the machine: the constants the source fixes (spec/00_scope.md R7), the decided layout
constants of R8, and, for every parameter R8 leaves OPEN and every value the spec leaves unstated, an opaque constant
that nothing can evaluate. The functions that use the open constants, with the constraints R8 gives them, stand in
Machine/Geometry.lean, Machine/Ops.lean and Machine/Refresh.lean; the free values that depend on the state, what the
collaborators write, stand in Machine/Collaborators.lean. -/

namespace Sys2Proof.Config

/-! ### Constants the source fixes (R7) -/

/-- `LINE_ACTIVE`: engine clocks of the dot loop. -/
def lineActive : Nat := 1280

/-- `LINE_TAIL`: the blanking-period remainder of an active line. -/
def lineTail : Clocks := 430

/-- `LINE_BLANK`: the full-line budget of a blanking line. -/
def lineBlank : Clocks := 1710

/-- `LINE_TOTAL` = `LINE_ACTIVE + LINE_TAIL`. -/
def lineTotal : Nat := 1710

/-- `MARGIN` = 16*1280 pixels: the overscan margin (the spec's own inference, stated in R7). -/
def margin : Nat := 16 * 1280

/-- `CLOCK_DIV`: the engine's clock is half the emulated system clock (R7, R213). -/
def clockDiv : Nat := 2

/-- `VRAM_BYTES`. -/
def vramBytes : Nat := 65536

/-- `VSRAM_BYTES`. -/
def vsramBytes : Nat := 80

/-- `CRAM_BYTES`. -/
def cramBytes : Nat := 128

/-- `STRIDE`: pixels per row of the output buffer (R8, D19). -/
def stride : Nat := 1280

/-- `MARGIN_ROWS` (R8, D19). -/
def marginRows : Nat := 16

/-- `OUT_WIDTH`: pixels per presented row (R8, D19). -/
def outWidth : Nat := 1280

/-! ### Parameters R8 leaves OPEN (log entry 2): no body, so every claim holds for every admissible value -/

/-- Decides `FrameHeight(field, latch.overscan)` within its constraint (D10): see `Machine.frameHeight`. -/
opaque frameLines : Bool → Bool → Nat

/-- Decides `F_SYS`, a positive even natural (D14): see `Machine.fSys`. -/
opaque sysHalfFreq : Nat

/-- Decides `F_CPU`, positive (D14): see `Machine.fCpu`. -/
opaque cpuFreq : Nat

/-- Decides `F_APU`, positive (D14): see `Machine.fApu`. -/
opaque apuFreq : Nat

/-- `SLACK`, non-negative (D14, R78). -/
opaque slack : Nat

/-- `OUT_H_SHORT` (D19). -/
opaque outHShort : Nat

/-- Decides `OUT_H_TALL` above `OUT_H_SHORT` (D19): see `Machine.outHTall`. -/
opaque outTallExtra : Nat

/-- Decides `BUF_CAP` within its constraint (D19): see `Machine.bufCap`. -/
opaque bufExtra : Nat

/-! ### Free values: what the spec leaves unstated -/

/-- The value a 16-bit counter takes where the sum of the old value and the addend does not fit. R48 says this cannot
occur, so only states no run reaches ask for it (log entry 6). -/
opaque counterOverflow : Counter → Nat → Counter

/-- The value of `seq.rem` after a `SYNC` that finds it 0. R48 says this cannot occur (log entry 6). -/
opaque remUnderflow : Clocks

/-- The pointer `output - MARGIN` where `output < MARGIN`. R48 and R166 say this cannot occur (log entry 6). -/
opaque cursorUnderflow : Nat → Nat

/-- Whether a `STEP` performed while the engine stands at a phase from which no rule calls it (by that phase's code)
returns to `DOT` or to `END`. R130 leaves `r` an operand in `DOT`, `END` and the word carries none (log entry 5). -/
opaque strayStepReturnsToDot : Nat → Bool

/-- How far beyond the engine's time a sibling has gone at a barrier that run control passes; the argument is the
draw's number, so every draw is fresh (R77 (d), R112, log entry 7). -/
opaque siblingLead : Nat → Nat

/-- What a pixel of the output buffer that nothing has written holds: an arbitrary value of its type, fixed but unknown
(R49, U6, log entry 12). -/
opaque unwrittenPixel : Nat → BitVec 32

end Sys2Proof.Config
end

