-- ==== Sys2Proof/Syntax.lean ====
section
/-! DEFINITION. The operations of the block as syntax: one constructor of `Instr` per row of spec/opcode_table.json (R9,
R98, R100), the names their operands take (R99), the agents (R16) and the reasons a word spells no operation (R102). -/

namespace Sys2Proof

/-- The three debug windows (R60, R99). -/
inductive Space
  | vram
  | vsram
  | cram
  deriving DecidableEq, Repr

/-- The six fields of the configuration snapshot, as `CFGWR` selects them (R35, R99). -/
inductive CfgField
  | hic
  | hbie
  | vbie
  | vblankIRQ
  | overscan
  | displayWidth
  deriving DecidableEq, Repr

/-- One operation: seven commands (R98) and nine micro-operations (R100). `END` is `endLine`. -/
inductive Instr
  | power (reset : Bool)
  | refresh (pref : Bool)
  | dbgrd (space : Space) (addr : Word)
  | dbgwr (space : Space) (addr : Word) (data : Byte)
  | cfgwr (fld : CfgField) (val : Byte)
  | line
  | run (n : BitVec 16)
  | pre
  | dot
  | hint
  | tick
  | sync
  | endLine
  | step (clocks : Clocks)
  | tail
  | blank
  deriving DecidableEq, Repr

/-- Who issues or executes an operation (R16, R98, R101). -/
inductive Agent
  | host
  | mainCpu
  | runControl
  | engine
  deriving DecidableEq, Repr

/-- The agent of each operation (R98, R101). -/
def Instr.agent : Instr → Agent
  | .power _ => .host
  | .refresh _ => .host
  | .dbgrd _ _ => .host
  | .dbgwr _ _ _ => .host
  | .cfgwr _ _ => .mainCpu
  | .line => .runControl
  | .run _ => .runControl
  | .pre => .engine
  | .dot => .engine
  | .hint => .engine
  | .tick => .engine
  | .sync => .engine
  | .endLine => .engine
  | .step _ => .engine
  | .tail => .engine
  | .blank => .engine

/-- A word of the two operation formats (R91): `CMD` of 32 bits, `UOP` of 16 bits. -/
inductive Code
  | cmd (w : CmdWord)
  | uop (w : UopWord)
  deriving DecidableEq, Repr

/-- Why a word spells no operation (R102), by name. -/
inductive Reject
  /-- `op` is 0x0 or 0x8 to 0xF. -/
  | reservedOp
  /-- A field the command does not use is not 0. -/
  | unusedField
  /-- `space` is 3. -/
  | reservedSpace
  /-- `fld` is 6 to 15. -/
  | reservedField
  /-- `fld` is 1 to 5 and `val` is above 1. -/
  | valueDoesNotFit
  /-- `RUN` with `n` = 0. -/
  | runZero
  /-- Micro-operation code 0x6, 0x7 or 0x9 to 0xF. -/
  | reservedCode
  /-- Bit 11 of a micro-operation word is set. -/
  | bit11Set
  /-- `clocks` is not 0 with a code other than 0x8. -/
  | strayClocks
  deriving DecidableEq, Repr

end Sys2Proof
end

