-- ==== Sys2Proof/WellFormed.lean ====
section
/-! DEFINITION. Which terms of `Instr` a word spells (R99, R100, R102). The windows and the field selectors are closed
types, so `space` = 3 and `fld` = 6 to 15 have no term at all; what is left to check is below. -/

namespace Sys2Proof

/-- The value of a `CFGWR` fits its field: 8 bits for `hic`, 0 or 1 for the others (R99, R176). -/
def CfgField.fits (fld : CfgField) (val : Byte) : Bool :=
  match fld with
  | .hic => true
  | .hbie => val.toNat ≤ 1
  | .vbie => val.toNat ≤ 1
  | .vblankIRQ => val.toNat ≤ 1
  | .overscan => val.toNat ≤ 1
  | .displayWidth => val.toNat ≤ 1

/-- `STEP(430)` and `STEP(1710)` are spelled by the rows `TAIL` and `BLANK`, which a decoder takes first (R100). -/
def stepSpelledByName (clocks : Clocks) : Bool := clocks == 430 || clocks == 1710

/-- The well-formedness check of one operation. -/
def Instr.wellFormed (i : Instr) : Bool :=
  match i with
  | .power _ => true
  | .refresh _ => true
  | .dbgrd _ _ => true
  | .dbgwr _ _ _ => true
  | .cfgwr fld val => fld.fits val
  | .line => true
  | .run n => n != 0
  | .pre => true
  | .dot => true
  | .hint => true
  | .tick => true
  | .sync => true
  | .endLine => true
  | .step clocks => !stepSpelledByName clocks
  | .tail => true
  | .blank => true

end Sys2Proof
end

