-- ==== Sys2Proof/Decode.lean ====
section
/-! DEFINITION. Decoding and encoding of the two operation formats (spec/30_encoding.md R97 to R102; the layouts are the
spec's own decisions D24, D25, D27). Decoding is total and rejects by name. -/

namespace Sys2Proof

/-! ### Selector codes (R99) -/

def Space.code : Space → BitVec 2
  | .vram => 0
  | .vsram => 1
  | .cram => 2

def Space.ofCode? (c : Nat) : Option Space :=
  match c with
  | 0 => some .vram
  | 1 => some .vsram
  | 2 => some .cram
  | _ => none

def CfgField.code : CfgField → BitVec 4
  | .hic => 0
  | .hbie => 1
  | .vbie => 2
  | .vblankIRQ => 3
  | .overscan => 4
  | .displayWidth => 5

def CfgField.ofCode? (c : Nat) : Option CfgField :=
  match c with
  | 0 => some .hic
  | 1 => some .hbie
  | 2 => some .vbie
  | 3 => some .vblankIRQ
  | 4 => some .overscan
  | 5 => some .displayWidth
  | _ => none

/-! ### The fields of a command word (R97): 31:28 `op`, 27:24 `sub`, 23:8 `a16`, 7:0 `a8` -/

def cmdOp (w : CmdWord) : BitVec 4 := w.extractLsb' 28 4

def cmdSub (w : CmdWord) : BitVec 4 := w.extractLsb' 24 4

def cmdA16 (w : CmdWord) : BitVec 16 := w.extractLsb' 8 16

def cmdA8 (w : CmdWord) : BitVec 8 := w.extractLsb' 0 8

/-- A command word from its four fields (R97). -/
def cmdWord (op sub : BitVec 4) (a16 : BitVec 16) (a8 : BitVec 8) : CmdWord := op ++ sub ++ a16 ++ a8

/-! ### The fields of a micro-operation word (R100): 15:12 `code`, 11 zero, 10:0 `clocks` -/

def uopCode (w : UopWord) : BitVec 4 := w.extractLsb' 12 4

def uopBit11 (w : UopWord) : BitVec 1 := w.extractLsb' 11 1

def uopClocks (w : UopWord) : Clocks := w.extractLsb' 0 11

/-- A micro-operation word from its code and its clocks, bit 11 zero (R100). -/
def uopWord (code : BitVec 4) (clocks : Clocks) : UopWord := code ++ (0 : BitVec 1) ++ clocks

/-! ### Decoding -/

/-- The operand of the commands with a one-bit selector (`POWER`, `REFRESH`): `sub` bit 0, bits 3:1 zero (R98). -/
def decodeOneBit (mk : Bool → Instr) (sub : BitVec 4) (a16 : BitVec 16) (a8 : BitVec 8) : Except Reject Instr :=
  if a16 = 0 ∧ a8 = 0 then
    match sub.toNat with
    | 0 => .ok (mk false)
    | 1 => .ok (mk true)
    | _ => .error .unusedField
  else .error .unusedField

/-- The window selector of `DBGRD` and `DBGWR`: `sub` bits 1:0, bits 3:2 zero, 3 reserved (R98, R99). -/
def decodeSpace (sub : BitVec 4) : Except Reject Space :=
  match sub.toNat with
  | 0 => .ok .vram
  | 1 => .ok .vsram
  | 2 => .ok .cram
  | 3 => .error .reservedSpace
  | _ => .error .unusedField

def decodeDbgrd (sub : BitVec 4) (a16 : BitVec 16) (a8 : BitVec 8) : Except Reject Instr :=
  if a8 = 0 then
    match decodeSpace sub with
    | .ok sp => .ok (.dbgrd sp a16)
    | .error e => .error e
  else .error .unusedField

def decodeDbgwr (sub : BitVec 4) (a16 : BitVec 16) (a8 : BitVec 8) : Except Reject Instr :=
  match decodeSpace sub with
  | .ok sp => .ok (.dbgwr sp a16 a8)
  | .error e => .error e

def decodeCfgwr (sub : BitVec 4) (a16 : BitVec 16) (a8 : BitVec 8) : Except Reject Instr :=
  if a16 = 0 then
    match CfgField.ofCode? sub.toNat with
    | none => .error .reservedField
    | some fld => if fld.fits a8 then .ok (.cfgwr fld a8) else .error .valueDoesNotFit
  else .error .unusedField

def decodeLine (sub : BitVec 4) (a16 : BitVec 16) (a8 : BitVec 8) : Except Reject Instr :=
  if sub = 0 ∧ a16 = 0 ∧ a8 = 0 then .ok .line else .error .unusedField

def decodeRun (sub : BitVec 4) (a16 : BitVec 16) (a8 : BitVec 8) : Except Reject Instr :=
  if sub = 0 ∧ a8 = 0 then
    if a16 = 0 then .error .runZero else .ok (.run a16)
  else .error .unusedField

/-- A command from its four fields (R98, R102). -/
def decodeCmdFields (op sub : BitVec 4) (a16 : BitVec 16) (a8 : BitVec 8) : Except Reject Instr :=
  match op.toNat with
  | 1 => decodeOneBit .power sub a16 a8
  | 2 => decodeOneBit .refresh sub a16 a8
  | 3 => decodeDbgrd sub a16 a8
  | 4 => decodeDbgwr sub a16 a8
  | 5 => decodeCfgwr sub a16 a8
  | 6 => decodeLine sub a16 a8
  | 7 => decodeRun sub a16 a8
  | _ => .error .reservedOp

/-- The command a 32-bit word spells (R97, R98, R102). -/
def decodeCmd (w : CmdWord) : Except Reject Instr :=
  decodeCmdFields (cmdOp w) (cmdSub w) (cmdA16 w) (cmdA8 w)

/-- A micro-operation whose `clocks` field must be 0 (R100, R102). -/
def decodeNoClocks (i : Instr) (clocks : Clocks) : Except Reject Instr :=
  if clocks = 0 then .ok i else .error .strayClocks

/-- `STEP`, the rows `TAIL` and `BLANK` taken first (R100). -/
def decodeStep (clocks : Clocks) : Except Reject Instr :=
  if clocks = 430 then .ok .tail
  else if clocks = 1710 then .ok .blank
  else .ok (.step clocks)

/-- A micro-operation from its fields (R100, R102). -/
def decodeUopFields (code : BitVec 4) (bit11 : BitVec 1) (clocks : Clocks) : Except Reject Instr :=
  if bit11 = 0 then
    match code.toNat with
    | 0 => decodeNoClocks .pre clocks
    | 1 => decodeNoClocks .dot clocks
    | 2 => decodeNoClocks .hint clocks
    | 3 => decodeNoClocks .tick clocks
    | 4 => decodeNoClocks .sync clocks
    | 5 => decodeNoClocks .endLine clocks
    | 8 => decodeStep clocks
    | _ => .error .reservedCode
  else .error .bit11Set

/-- The micro-operation a 16-bit word spells (R100, R102). -/
def decodeUop (w : UopWord) : Except Reject Instr :=
  decodeUopFields (uopCode w) (uopBit11 w) (uopClocks w)

/-- Decoding of a word of either format. -/
def decode : Code → Except Reject Instr
  | .cmd w => decodeCmd w
  | .uop w => decodeUop w

/-- The operation a word spells, if it spells one. -/
def Except.toInstr? : Except Reject Instr → Option Instr
  | .ok i => some i
  | .error _ => none

/-- The operation this decoder reads from a row of spec/opcode_table.json: 16 bits are a `UOP` word, 32 a `CMD` word;
every operation is exactly one word of its format (R91). -/
def decodeTableWord (nbits w : Nat) : Option Instr :=
  if nbits ≤ 16 then Except.toInstr? (decodeUop (BitVec.ofNat 16 w))
  else Except.toInstr? (decodeCmd (BitVec.ofNat 32 w))

/-! ### Encoding, from the same tables (R98, R99, R100) -/

/-- The one-bit selector of `POWER` and `REFRESH` in `sub` (R98). -/
def oneBitSub (b : Bool) : BitVec 4 := if b then 1 else 0

/-- The word an operation is spelled by. -/
def encode (i : Instr) : Code :=
  match i with
  | .power reset => .cmd (cmdWord 1 (oneBitSub reset) 0 0)
  | .refresh pref => .cmd (cmdWord 2 (oneBitSub pref) 0 0)
  | .dbgrd sp addr => .cmd (cmdWord 3 (sp.code.setWidth 4) addr 0)
  | .dbgwr sp addr data => .cmd (cmdWord 4 (sp.code.setWidth 4) addr data)
  | .cfgwr fld val => .cmd (cmdWord 5 fld.code 0 val)
  | .line => .cmd (cmdWord 6 0 0 0)
  | .run n => .cmd (cmdWord 7 0 n 0)
  | .pre => .uop (uopWord 0 0)
  | .dot => .uop (uopWord 1 0)
  | .hint => .uop (uopWord 2 0)
  | .tick => .uop (uopWord 3 0)
  | .sync => .uop (uopWord 4 0)
  | .endLine => .uop (uopWord 5 0)
  | .step clocks => .uop (uopWord 8 clocks)
  | .tail => .uop (uopWord 8 430)
  | .blank => .uop (uopWord 8 1710)

/-! ### The table itself (R98, R100), one row per mnemonic -/

/-- A row of the table: the word `w` of `width` bits spells the operation when `w & mask = pat`. -/
structure Row where
  mnemonic : String
  width : Nat
  pat : Nat
  mask : Nat
  deriving DecidableEq, Repr

/-- The seven rows of R98. -/
def cmdRows : List Row :=
  [⟨"POWER", 32, 0x10000000, 0xFEFFFFFF⟩,
   ⟨"REFRESH", 32, 0x20000000, 0xFEFFFFFF⟩,
   ⟨"DBGRD", 32, 0x30000000, 0xFC0000FF⟩,
   ⟨"DBGWR", 32, 0x40000000, 0xFC000000⟩,
   ⟨"CFGWR", 32, 0x50000000, 0xF0FFFF00⟩,
   ⟨"LINE", 32, 0x60000000, 0xFFFFFFFF⟩,
   ⟨"RUN", 32, 0x70000000, 0xFF0000FF⟩]

/-- The nine rows of R100. -/
def uopRows : List Row :=
  [⟨"PRE", 16, 0x0000, 0xFFFF⟩,
   ⟨"DOT", 16, 0x1000, 0xFFFF⟩,
   ⟨"HINT", 16, 0x2000, 0xFFFF⟩,
   ⟨"TICK", 16, 0x3000, 0xFFFF⟩,
   ⟨"SYNC", 16, 0x4000, 0xFFFF⟩,
   ⟨"END", 16, 0x5000, 0xFFFF⟩,
   ⟨"STEP", 16, 0x8000, 0xF800⟩,
   ⟨"TAIL", 16, 0x81AE, 0xFFFF⟩,
   ⟨"BLANK", 16, 0x86AE, 0xFFFF⟩]

/-- The row of an operation. -/
def Instr.row : Instr → Row
  | .power _ => ⟨"POWER", 32, 0x10000000, 0xFEFFFFFF⟩
  | .refresh _ => ⟨"REFRESH", 32, 0x20000000, 0xFEFFFFFF⟩
  | .dbgrd _ _ => ⟨"DBGRD", 32, 0x30000000, 0xFC0000FF⟩
  | .dbgwr _ _ _ => ⟨"DBGWR", 32, 0x40000000, 0xFC000000⟩
  | .cfgwr _ _ => ⟨"CFGWR", 32, 0x50000000, 0xF0FFFF00⟩
  | .line => ⟨"LINE", 32, 0x60000000, 0xFFFFFFFF⟩
  | .run _ => ⟨"RUN", 32, 0x70000000, 0xFF0000FF⟩
  | .pre => ⟨"PRE", 16, 0x0000, 0xFFFF⟩
  | .dot => ⟨"DOT", 16, 0x1000, 0xFFFF⟩
  | .hint => ⟨"HINT", 16, 0x2000, 0xFFFF⟩
  | .tick => ⟨"TICK", 16, 0x3000, 0xFFFF⟩
  | .sync => ⟨"SYNC", 16, 0x4000, 0xFFFF⟩
  | .endLine => ⟨"END", 16, 0x5000, 0xFFFF⟩
  | .step _ => ⟨"STEP", 16, 0x8000, 0xF800⟩
  | .tail => ⟨"TAIL", 16, 0x81AE, 0xFFFF⟩
  | .blank => ⟨"BLANK", 16, 0x86AE, 0xFFFF⟩

/-- A word's bits are in a row: same width and `w & mask = pat`. -/
def Row.matches (r : Row) : Code → Bool
  | .cmd w => r.width == 32 && (w.toNat &&& r.mask) == r.pat
  | .uop w => r.width == 16 && (w.toNat &&& r.mask) == r.pat

end Sys2Proof
end

