-- ==== Sys2Proof/Machine/State.lean ====
section
/-! DEFINITION. The state of the block as plain data (spec/10_state.md, spec/20_memory.md), the event alphabet (R94), the
inputs from the other agents (R16, R17), the reasons a step is refused, and the state right after a hard power-on. -/

namespace Sys2Proof.Machine

/-! ### The sequencer's position (R40 to R42) -/

/-- `seq.ph`: the micro-operation the engine executes next (R40, R100). Codes 6 and 7 have no constructor (R103). -/
inductive Phase
  | pre
  | dot
  | hint
  | tick
  | sync
  | endLine
  deriving DecidableEq, Repr

/-- `seq.ret`: the phase a `STEP` returns to; `pre` is the reset value, never used as a return (R42, R100). -/
inductive Ret
  | pre
  | dot
  | endLine
  deriving DecidableEq, Repr

structure Seq where
  ph : Phase
  rem : Clocks
  ret : Ret
  deriving DecidableEq, Repr

/-! ### Registers -/

/-- ClockState (R20 to R23). -/
structure ClockState where
  hcounter : Counter
  hdot : Counter
  vcounter : Counter
  field : Bool
  deriving DecidableEq, Repr

/-- InterruptLatch (R25 to R28). -/
structure Latch where
  hic : BitVec 8
  overscan : Bool
  displayWidth : Bool
  deriving DecidableEq, Repr

/-- The configuration snapshot `io` (R35). -/
structure Io where
  hic : BitVec 8
  hbie : Bool
  vbie : Bool
  vblankIRQ : Bool
  overscan : Bool
  displayWidth : Bool
  deriving DecidableEq, Repr

/-- The three interrupt output flops (R30 to R32). -/
structure Irq where
  hblank : Bool
  vblank : Bool
  apuInt : Bool
  deriving DecidableEq, Repr

/-- What `MAINCPU` can observe of the block: the two interrupt lines, the vblank-pending flag and the counters (R77). -/
structure CpuView where
  hblank : Bool
  vblank : Bool
  vblankIRQ : Bool
  clock : ClockState
  deriving DecidableEq, Repr

/-- What each sibling can observe, or has observed: `MAINCPU`'s view and the level of `apu_int` for `AUDIOCPU` (R16,
R77). -/
structure Views where
  cpu : CpuView
  apu : Bool
  deriving DecidableEq, Repr

/-- The logical times of the three clock domains (R44, R45). -/
structure Times where
  vdp : Nat
  cpu : Nat
  apu : Nat
  deriving DecidableEq, Repr

/-! ### Memory (R60 to R65) -/

/-- A backing store as bytes by byte address (byte `2k` is bits 15:8 of word `k`, byte `2k+1` bits 7:0, R67), in one
canonical form: addresses strictly rising, no entry equal to 0, which is what an unlisted address reads as. -/
abbrev Memory := List Host.Cell

/-- The three stores (R60). -/
structure Stores where
  vram : Memory
  vsram : Memory
  cram : Memory
  deriving DecidableEq, Repr

/-- The output buffer by pixel index, in one canonical form: indices strictly rising and below `BUF_CAP`, no entry equal
to what an unlisted pixel holds, which is the unknown `Config.unwrittenPixel` (R65, U6). A pixel is `PIXEL_BYTES` = 4
bytes (R8). -/
abbrev Pixels := List (Nat × BitVec 32)

/-! ### Events (R94, R95) -/

/-- The two interrupt kinds of the main CPU (R95). -/
inductive IrqKind
  | hblank
  | vblank
  deriving DecidableEq, Repr

/-- The five collaborators that `POWER` resets (R94, R210). -/
inductive Hook
  | planeA
  | window
  | planeB
  | sprite
  | dma
  deriving DecidableEq, Repr

/-- An event of the output trace (R12, R94). -/
inductive Event
  | lineHook (v : Counter)
  | cpuLower (k : IrqKind)
  | cpuRaise (k : IrqKind)
  | apuSetInt (b : Bool)
  | renderRun
  | dmaRun
  | synced
  | sinkRefresh (ptr strideBytes width height : Nat)
  | powerHook (c : Hook)
  deriving DecidableEq, Repr

/-! ### The other agents' steps (R16, R17; log entries 8, 9, 10) -/

/-- One turn of one agent. The list of turns in the state says which agent steps next; when it is empty the engine
steps. -/
inductive Turn
  /-- `ENGINE` executes the micro-operation of `seq.ph`. -/
  | engine
  /-- A command word is issued by `HOST`, by `MAINCPU` or by run control, as its row says (R98). -/
  | command (w : CmdWord)
  /-- The sequencer is given this micro-operation word instead of the one of `seq.ph`. The model's own input, for
  running one micro-operation alone: no agent of the spec takes this turn (R102, log entry 10). -/
  | micro (w : UopWord)
  /-- `MAINCPU` advances its logical time by `n` of its clock periods. -/
  | cpuTime (n : Nat)
  /-- `AUDIOCPU` advances its logical time by `n` of its clock periods. -/
  | apuTime (n : Nat)
  /-- The siblings' own power operations, which set their logical times to 0 (R45, R204). -/
  | siblingsPower
  /-- `MAINCPU` reads the interrupt lines, the vblank-pending flag and the counters (R16, R77). -/
  | cpuLook
  /-- `AUDIOCPU` reads `apu_int` (R16, R77). -/
  | apuLook
  /-- The register decode, acting on a write of `MAINCPU`, writes one byte of a store (R16, R66). -/
  | decodeStore (sp : Space) (addr : Word) (v : Byte)
  /-- The register decode, acting on a write of `MAINCPU`, writes the VRAM access-mode flag (R16, R46). -/
  | decodeVramMode (b : Bool)
  deriving DecidableEq, Repr

/-! ### The state -/

/-- The whole state. The first group is the block's (R20 to R47, R60 to R66), then the environment's and the model's
own. -/
structure State where
  /-- ClockState: `hcounter`, `hdot`, `vcounter`, `field`. -/
  clock : ClockState
  /-- InterruptLatch: `latch.hic`, `latch.overscan`, `latch.displayWidth`. -/
  latch : Latch
  /-- The configuration snapshot `io`. -/
  io : Io
  /-- The interrupt outputs `irq_hblank`, `irq_vblank`, `apu_int`. -/
  irq : Irq
  /-- The sequencer: `seq.ph`, `seq.rem`, `seq.ret`. -/
  seq : Seq
  /-- `t_vdp` (the engine's), `t_cpu` and `t_apu` (the siblings'). -/
  time : Times
  /-- `vram_mode`, the internal VRAM access-mode flag (R46). -/
  vramMode : Bool
  /-- `output`, the output cursor, a pixel index (R47). -/
  output : Nat
  /-- VRAM, VSRAM, CRAM. -/
  stores : Stores
  /-- The output buffer OUTBUF. -/
  outbuf : Pixels
  /-- The event trace, NEWEST FIRST; `State.trace` reads it in order. -/
  log : List Event
  /-- False before the first `POWER` (R197, R217). -/
  powered : Bool
  /-- What has been made visible to the siblings: the block as it stood when `SYNC` was last passed (R77, R189; log entry
  30). What `MAINCPU` reads of it, `hcounter` in the middle of a `STEP` apart (R131), is `cpuReads`. -/
  seen : Views
  /-- What each sibling observed at its last look (R16; log entry 30). -/
  saw : Views
  /-- The byte the last `DBGRD` answered: the port `dbg_rdata` (R92, R171). -/
  dbgRdata : Byte
  /-- The model's own: whose turn is next (R17). -/
  schedule : List Turn
  /-- The model's own: the number of free values drawn so far. -/
  freeIdx : Nat
  deriving DecidableEq, Repr

/-- The output trace in the order the events were emitted (R12). -/
def State.trace (s : State) : List Event := s.log.reverse

/-! ### The ways a step stops -/

/-- No behaviour of this block is a fault: the source says "there are no externally observable errors"
(spec/93_implementation_defined.md, R13, R180). The type is empty, so no step can answer one: safe. -/
inductive Fault
  deriving DecidableEq, Repr

/-- The outcome `refuse` of R183, and the inputs the spec does not admit. Each is safe: nothing is claimed of what
follows, and the state is as it was before the refused turn. -/
inductive Refusal
  /-- Raised by an arm of `exec` whose instruction has no meaning yet. Safe. -/
  | notModelled (mnemonic : String)
  /-- Raised where a word, or an operand no word carries, spells no operation (R102, R183). Safe. -/
  | illegalWord (why : Reject)
  /-- Raised before the first `POWER` by every operation but `POWER` (R197, R217), and by a turn of a sibling's domain (the
  model's choice, log entry 29). Safe. -/
  | notPowered
  /-- Raised by a `HOST` command or a `CFGWR` at a phase other than `PRE` or `SYNC` (R17, R74, R176, R183). Safe. -/
  | notQuiescent
  /-- Raised by a turn of a sibling's domain at a phase other than `PRE` or `SYNC` (R17). Safe. -/
  | notYielding
  deriving DecidableEq, Repr

/-! ### Reset (R49) -/

/-- Nothing raised and every counter 0. -/
def quietViews : Views := ⟨⟨false, false, false, ⟨0, 0, 0, false⟩⟩, false⟩

/-- The five hooks of `POWER`, in order (R210). -/
def powerHooks : List Event :=
  [.powerHook .planeA, .powerHook .window, .powerHook .planeB, .powerHook .sprite, .powerHook .dma]

/-- The state that a hard power-on of the whole machine produces (R49, R217): every register at the value R49 gives, the
stores zero, the siblings' times 0 (the launch premise of R45), the trace holding the five hooks, nothing scheduled, and nothing raised in the siblings' view
(log entry 30). -/
def State.reset : State where
  clock := ⟨0, 0, 0, false⟩
  latch := ⟨0, false, false⟩
  io := ⟨0, false, false, false, false, false⟩
  irq := ⟨false, false, false⟩
  seq := ⟨.pre, 0, .pre⟩
  time := ⟨0, 0, 0⟩
  vramMode := false
  output := Config.margin
  stores := ⟨[], [], []⟩
  outbuf := []
  log := powerHooks.reverse
  powered := true
  seen := quietViews
  saw := quietViews
  dbgRdata := 0
  schedule := []
  freeIdx := 0

end Sys2Proof.Machine
end

