-- ==== Sys2Proof/Machine/Geometry.lean ====
section
/-! DEFINITION. The display geometry resolver (spec/40_geometry.md): combinational functions of the latches and `field`,
evaluated afresh at every use (R14, R120, R125), and the other parameters of R8 within their constraints. -/

namespace Sys2Proof.Machine

/-- `SH_SHORT` (R8, R121; D9, supplied by the spec from general knowledge: log entry 1). -/
def shShort : Nat := 224

/-- `SH_TALL` (R8, R121; D9, log entry 1). -/
def shTall : Nat := 240

/-- `PW_NARROW` (R8, R123; D11, log entry 1). -/
def pwNarrow : Nat := 5

/-- `PW_WIDE` (R8, R123; D11, log entry 1). -/
def pwWide : Nat := 4

/-- The screen height of an overscan bit (R121). -/
def screenHeightOf (overscan : Bool) : Nat := if overscan then shTall else shShort

/-- The pixel width of a display-width bit (R123). -/
def pixelWidthOf (displayWidth : Bool) : Nat := if displayWidth then pwWide else pwNarrow

/-- `FrameHeight(f, o)` (R8, R122; D10): OPEN, any total function with `screenHeight(o) < FrameHeight(f,o) < 2^16`. The
opaque choice is folded into exactly that range, so every admissible function is one of its values (log entry 2). -/
def frameHeightOf (f o : Bool) : Nat :=
  screenHeightOf o + 1 + Config.frameLines f o % (65535 - screenHeightOf o)

/-- `screenHeight()`: reads `latch.overscan` (R121). -/
def screenHeight (s : State) : Nat := screenHeightOf s.latch.overscan

/-- `frameHeight()`: reads `field` and `latch.overscan` (R122). -/
def frameHeight (s : State) : Nat := frameHeightOf s.clock.field s.latch.overscan

/-- `pixelWidth()`: reads `latch.displayWidth` (R123). -/
def pixelWidth (s : State) : Nat := pixelWidthOf s.latch.displayWidth

/-- `activeWidth()` = `1280 / pixelWidth()` (R124). -/
def activeWidth (s : State) : Nat := Config.lineActive / pixelWidth s

/-- The line is active at its start (R18, R151). -/
def activeLine (s : State) : Bool := s.clock.vcounter.toNat < screenHeight s

/-- `F_SYS`, a positive even natural (R8, D14). -/
def fSys : Nat := 2 * (Config.sysHalfFreq + 1)

/-- `F_CPU`, positive (R8, D14). -/
def fCpu : Nat := Config.cpuFreq + 1

/-- `F_APU`, positive (R8, D14). -/
def fApu : Nat := Config.apuFreq + 1

/-- `PIXEL_BYTES` (R8; D19, supplied by the spec from general knowledge: log entry 1). -/
def pixelBytes : Nat := 4

/-- `OUT_H_TALL`, above `OUT_H_SHORT` (R8, D19). -/
def outHTall : Nat := Config.outHShort + 1 + Config.outTallExtra

/-- `BUF_CAP`, at least `MARGIN + (OUT_H_TALL + MARGIN_ROWS) * STRIDE` (R8, D19). -/
def bufCap : Nat := Config.margin + (outHTall + Config.marginRows) * Config.stride + Config.bufExtra

end Sys2Proof.Machine
end

