-- ==== Sys2Proof/Machine/Ops.lean ====
section
/-! DEFINITION. The named operations over registers, events and memory that the meanings are written with: admission
(R17), the trace (R12), the counters (R48), the entry action `STEP` (R130), the barrier (R133, R134) and the byte accesses
of the debug windows (R63, R64). The block has no exception entry and no return from one (R193, R195): its part of an
interrupt is the driving of a line, in Flags.lean. -/

namespace Sys2Proof.Machine

/-- The outcome of one step of this block. -/
abbrev Result := Host.Outcome State Fault Refusal

/-! ### Admission (R17, R197) -/

/-- The engine is quiescent: it stands at `PRE` or at `SYNC` (R17). -/
def quiescent (s : State) : Bool := s.seq.ph == .pre || s.seq.ph == .sync

/-- Before the first `POWER` no operation but `POWER` is admitted (R197, R217). -/
def whenPowered (s : State) (r : Result) : Result := if s.powered then r else .refused .notPowered

/-- A `HOST` command or a `CFGWR`: admitted when the block is powered and quiescent, refused otherwise (R17, R183). -/
def whenQuiescent (s : State) (r : Result) : Result :=
  whenPowered s (if quiescent s then r else .refused .notQuiescent)

/-- A turn of a sibling's domain: it acts only while the engine stands at `SYNC` or `PRE` (R17, R66). That it is refused
before the first `POWER` too is the model's choice: R204 leaves the siblings' start unspecified, and what a sibling does
before this block is powered is no operation of the block (log entry 29). -/
def whenYielding (s : State) (r : Result) : Result :=
  whenPowered s (if quiescent s then r else .refused .notYielding)

/-! ### The trace (R12) -/

/-- `emit E`: append one event to the trace. -/
def emit (e : Event) (s : State) : State := { s with log := e :: s.log }

/-- Append events in the order listed. -/
def emitAll (es : List Event) (s : State) : State := { s with log := es.reverse ++ s.log }

/-! ### Counter arithmetic (R10, R48) -/

/-- A 16-bit counter plus a natural number. R48 says no overflow can occur; in the states where one would, the value is
free (log entry 6). -/
def addCounter (c : Counter) (n : Nat) : Counter :=
  if c.toNat + n < 65536 then BitVec.ofNat 16 (c.toNat + n) else Config.counterOverflow c n

/-- `seq.rem - 1` on 11 bits. R48 says `SYNC` runs only with `seq.rem >= 1`; at 0 the value is free (log entry 6). -/
def decRem (r : Clocks) : Clocks := if r = 0 then Config.remUnderflow else r - 1

/-! ### The sequencer (R40 to R42, R130, R150) -/

/-- The phase a return register names. -/
def Ret.phase : Ret → Phase
  | .pre => .pre
  | .dot => .dot
  | .endLine => .endLine

/-- `seq.ph <- p` (R11). -/
def setPhase (p : Phase) (s : State) : State := { s with seq := { s.seq with ph := p } }

/-- `STEP(clocks)` returning to `r`, the entry action of R130: the whole request is added to `hcounter` at once. -/
def enterStep (clocks : Clocks) (r : Ret) (s : State) : State :=
  { s with
    clock := { s.clock with hcounter := addCounter s.clock.hcounter clocks.toNat }
    seq := { ph := if 0 < clocks.toNat then .tick else r.phase, rem := clocks, ret := r } }

/-! ### The barrier (R133, R134, R112) -/

/-- `caught_up` for a sibling of frequency `f` at its own logical time `t` (R134). -/
def caughtUp (f t : Nat) (s : State) : Bool := s.time.vdp * Config.clockDiv * f ≤ t * fSys

/-- `SYNC` is enabled: both siblings have caught up (R133). -/
def barrierOpen (s : State) : Bool := caughtUp fCpu s.time.cpu s && caughtUp fApu s.time.apu s

/-- The block as it stands now, as the siblings would observe it. -/
def viewOf (s : State) : Views :=
  { cpu := { hblank := s.irq.hblank, vblank := s.irq.vblank, vblankIRQ := s.io.vblankIRQ, clock := s.clock }
    apu := s.irq.apuInt }

/-- All engine writes so far become visible to the siblings, together (R77, R189). -/
def publish (s : State) : State := { s with seen := viewOf s }

/-- The `hcounter` that `MAINCPU` reads. In the middle of a `STEP`, of which a sibling's turn meets only the `SYNC`s, it is
the engine's own, which holds the value at the end of that `STEP` since its entry (R131, D8); elsewhere it is what was
last made visible (R77). That R131 goes before R77 (c) here is log entry 30. -/
def hcounterRead (s : State) : Counter :=
  if s.seq.ph = .sync then s.clock.hcounter else s.seen.cpu.clock.hcounter

/-- What `MAINCPU` reads when it looks (R16): all it can observe as of the last passed `SYNC` (R77), but `hcounter`
(R131). -/
def cpuReads (s : State) : CpuView :=
  { s.seen.cpu with clock := { s.seen.cpu.clock with hcounter := hcounterRead s } }

/-- What a passed `SYNC` does (R133), the siblings' view with it (R77). -/
def passBarrier (s : State) : State :=
  let s := emit .synced (publish s)
  let rem := decRem s.seq.rem
  { s with seq := { s.seq with rem := rem, ph := if 0 < rem.toNat then .tick else s.seq.ret.phase } }

/-- The least logical time at which a sibling of frequency `f` has caught up (R134). -/
def leastCaughtUp (f : Nat) (s : State) : Nat := (s.time.vdp * Config.clockDiv * f + (fSys - 1)) / fSys

/-- The siblings cooperate at a barrier that run control passes: each advances its own time until it has caught up, and
beyond that by a free amount (R77 (d), R112; log entry 7). -/
def cooperate (s : State) : State :=
  { s with
    time :=
      { s.time with
        cpu := max s.time.cpu (leastCaughtUp fCpu s) + Config.siblingLead s.freeIdx
        apu := max s.time.apu (leastCaughtUp fApu s) + Config.siblingLead (s.freeIdx + 1) }
    freeIdx := s.freeIdx + 2 }

/-! ### Cells: a memory as a canonical list

`d` says what an unlisted place holds. -/

/-- The value at a place. -/
def Cells.read {w : Nat} (d : Nat → BitVec w) : List (Nat × BitVec w) → Nat → BitVec w
  | [], a => d a
  | (b, v) :: m, a => if a = b then v else Cells.read d m a

/-- The list without any entry for `a`. -/
def Cells.erase {w : Nat} (m : List (Nat × BitVec w)) (a : Nat) : List (Nat × BitVec w) := m.filter (fun c => c.1 != a)

/-- An entry put before the first entry of a higher place. -/
def Cells.place {w : Nat} (a : Nat) (v : BitVec w) : List (Nat × BitVec w) → List (Nat × BitVec w)
  | [] => [(a, v)]
  | c :: m => if a < c.1 then (a, v) :: c :: m else c :: Cells.place a v m

/-- Write one value; writing what an unlisted place holds removes the entry. -/
def Cells.write {w : Nat} (d : Nat → BitVec w) (m : List (Nat × BitVec w)) (a : Nat) (v : BitVec w) :
    List (Nat × BitVec w) :=
  if v = d a then Cells.erase m a else Cells.place a v (Cells.erase m a)

/-- The canonical form from place `lo` on: places strictly rising, below `limit`, no entry equal to what an unlisted place
holds. -/
def Cells.wfFrom {w : Nat} (d : Nat → BitVec w) (limit : Nat) : Nat → List (Nat × BitVec w) → Bool
  | _, [] => true
  | lo, (a, v) :: m =>
    decide (lo ≤ a) && decide (a < limit) && decide (v ≠ d a) && Cells.wfFrom d limit (a + 1) m

/-! ### Bytes of a store (R60) and pixels of the output buffer (R65) -/

/-- An unlisted byte of a store reads as 0 (R49, R210). -/
def zeroByte (_ : Nat) : Byte := 0

/-- The byte at an address. -/
def Memory.read (m : Memory) (a : Nat) : Byte := Cells.read zeroByte m a

/-- Write one byte. -/
def Memory.write (m : Memory) (a : Nat) (v : Byte) : Memory := Cells.write zeroByte m a v

/-- The canonical form of a store of `limit` bytes. -/
def Memory.wf (limit : Nat) (m : Memory) : Bool := Cells.wfFrom zeroByte limit 0 m

/-- The pixel at an index; one that nothing has written holds an unknown value (U6). -/
def Pixels.read (p : Pixels) (i : Nat) : BitVec 32 := Cells.read Config.unwrittenPixel p i

/-- Write one pixel. -/
def Pixels.write (p : Pixels) (i : Nat) (v : BitVec 32) : Pixels := Cells.write Config.unwrittenPixel p i v

/-- The canonical form of the output buffer. -/
def Pixels.wf (p : Pixels) : Bool := Cells.wfFrom Config.unwrittenPixel bufCap 0 p

/-! ### Words of a store and the debug windows (R60 to R64, R67) -/

/-- Bits 15:8 and bits 7:0 of a word. -/
def hiByte (w : Word) : Byte := w.extractLsb' 8 8

def loByte (w : Word) : Byte := w.extractLsb' 0 8

/-- Word `k` of a store: byte `2k` is its high byte, byte `2k+1` its low byte (R67). -/
def Memory.word (m : Memory) (k : Nat) : Word := Memory.read m (2 * k) ++ Memory.read m (2 * k + 1)

/-- Replace word `k` of a store. -/
def Memory.setWord (m : Memory) (k : Nat) (w : Word) : Memory :=
  Memory.write (Memory.write m (2 * k) (hiByte w)) (2 * k + 1) (loByte w)

/-- The bytes of a window (R7, R60, R71). -/
def Space.limit : Space → Nat
  | .vram => Config.vramBytes
  | .vsram => Config.vsramBytes
  | .cram => Config.cramBytes

/-- The store behind a window. -/
def Stores.get (st : Stores) : Space → Memory
  | .vram => st.vram
  | .vsram => st.vsram
  | .cram => st.cram

def Stores.set (st : Stores) (sp : Space) (m : Memory) : Stores :=
  match sp with
  | .vram => { st with vram := m }
  | .vsram => { st with vsram := m }
  | .cram => { st with cram := m }

/-- Every store is in canonical form. -/
def Stores.wf (st : Stores) : Bool :=
  Memory.wf (Space.limit .vram) st.vram && Memory.wf (Space.limit .vsram) st.vsram &&
    Memory.wf (Space.limit .cram) st.cram

/-- The word index of a byte address: `addr >> 1`. -/
def wordIndex (addr : Word) : Nat := (addr >>> 1).toNat

/-- `addr[0] = 0`: the high byte of the word (R63). -/
def isEvenAddr (addr : Word) : Bool := !addr.getLsbD 0

/-- `MemRead(space, addr, 1)` (R63). -/
def memRead (st : Stores) (sp : Space) (addr : Word) : Byte :=
  if Space.limit sp ≤ addr.toNat then 0
  else
    let w := Memory.word (Stores.get st sp) (wordIndex addr)
    if isEvenAddr addr then hiByte w else loByte w

/-- The word with one of its bytes replaced (R64). -/
def replaceByte (even : Bool) (v : Byte) (w : Word) : Word :=
  if even then v ++ loByte w else hiByte w ++ v

/-- `MemWrite(space, addr, 1, v)` (R64): a read-modify-write of the containing word; out of range, nothing. -/
def memWrite (st : Stores) (sp : Space) (addr : Word) (v : Byte) : Stores :=
  if Space.limit sp ≤ addr.toNat then st
  else
    let m := Stores.get st sp
    let w := Memory.word m (wordIndex addr)
    Stores.set st sp (Memory.setWord m (wordIndex addr) (replaceByte (isEvenAddr addr) v w))

end Sys2Proof.Machine
end

