-- ==== Sys2Proof/Machine/Operands.lean ====
section
/-! DEFINITION. The operand forms: the configuration fields a `CFGWR` writes (R35, R99, R176), the `CFG` word (R96), the
codes of phases and interrupt kinds (R95, R100, R103) and the return phase of a `STEP` word (R130). -/

namespace Sys2Proof.Machine

/-- A one-bit field value: `val` is 0 or 1 for the fields that take one bit (R99). -/
def bitOf (val : Byte) : Bool := val.getLsbD 0

/-- `io.<fld> <- val` (R176). -/
def Io.write (io : Io) (fld : CfgField) (val : Byte) : Io :=
  match fld with
  | .hic => { io with hic := val }
  | .hbie => { io with hbie := bitOf val }
  | .vbie => { io with vbie := bitOf val }
  | .vblankIRQ => { io with vblankIRQ := bitOf val }
  | .overscan => { io with overscan := bitOf val }
  | .displayWidth => { io with displayWidth := bitOf val }

/-- The value a field holds, as a `CFGWR` would write it. -/
def Io.read (io : Io) (fld : CfgField) : Byte :=
  match fld with
  | .hic => io.hic
  | .hbie => if io.hbie then 1 else 0
  | .vbie => if io.vbie then 1 else 0
  | .vblankIRQ => if io.vblankIRQ then 1 else 0
  | .overscan => if io.overscan then 1 else 0
  | .displayWidth => if io.displayWidth then 1 else 0

/-! ### The `CFG` word (R96): 7:0 `hic`, 8 `hbie`, 9 `vbie`, 10 `overscan`, 11 `dw`, 12 `vbl`, 15:13 reserved -/

/-- The configuration snapshot packed into one word. -/
def cfgPack (io : Io) : CfgWord :=
  (0 : BitVec 3) ++ BitVec.ofBool io.vblankIRQ ++ BitVec.ofBool io.displayWidth ++ BitVec.ofBool io.overscan ++
    BitVec.ofBool io.vbie ++ BitVec.ofBool io.hbie ++ io.hic

/-- The snapshot a word packs; a word with a reserved bit set is refused. -/
def cfgUnpack (w : CfgWord) : Option Io :=
  if w.extractLsb' 13 3 = 0 then
    some
      { hic := w.extractLsb' 0 8
        hbie := w.getLsbD 8
        vbie := w.getLsbD 9
        vblankIRQ := w.getLsbD 12
        overscan := w.getLsbD 10
        displayWidth := w.getLsbD 11 }
  else none

/-! ### Codes -/

/-- The code of a phase in `seq.ph` (R100). -/
def Phase.code : Phase → BitVec 3
  | .pre => 0
  | .dot => 1
  | .hint => 2
  | .tick => 3
  | .sync => 4
  | .endLine => 5

/-- The phase of a code; 6 and 7 are refused (R103). -/
def Phase.ofCode? (c : BitVec 3) : Option Phase :=
  match c.toNat with
  | 0 => some .pre
  | 1 => some .dot
  | 2 => some .hint
  | 3 => some .tick
  | 4 => some .sync
  | 5 => some .endLine
  | _ => none

/-- The code of a return register value (R100). -/
def Ret.code (r : Ret) : BitVec 3 := Phase.code r.phase

/-- The code of an interrupt kind (R95). -/
def IrqKind.code : IrqKind → BitVec 1
  | .hblank => 0
  | .vblank => 1

/-- The return phase of a `STEP` word, which carries none: `STEP` is performed at the end of its caller, `DOT` calls it
returning to `DOT`, `PRE` and `HINT` returning to `END` (R130); at another phase the spec states none and the choice
between the two is free (log entry 5). -/
def stepReturn (p : Phase) : Ret :=
  match p with
  | .dot => .dot
  | .pre => .endLine
  | .hint => .endLine
  | .tick => if Config.strayStepReturnsToDot (Phase.code p).toNat then .dot else .endLine
  | .sync => if Config.strayStepReturnsToDot (Phase.code p).toNat then .dot else .endLine
  | .endLine => if Config.strayStepReturnsToDot (Phase.code p).toNat then .dot else .endLine

end Sys2Proof.Machine
end

