-- ==== Sys2Proof/Machine/Flags.lean ====
section
/-! DEFINITION. The flags of the block: the three interrupt output flops, each driven together with the call it records
(R30 to R33), the vblank-pending flag (R36), the field bit (R157), and the detectors (R149), none of which has state of
its own. -/

namespace Sys2Proof.Machine

/-! ### Driving the lines (R30 to R33, R93) -/

/-- The flop of an interrupt kind set to a level. -/
def Irq.set (q : Irq) (k : IrqKind) (level : Bool) : Irq :=
  match k with
  | .hblank => { q with hblank := level }
  | .vblank => { q with vblank := level }

/-- `raise(k)` on the main CPU: the flop to 1 and `CPU_RAISE(k)`. -/
def raiseLine (k : IrqKind) (s : State) : State :=
  emit (.cpuRaise k) { s with irq := Irq.set s.irq k true }

/-- `lower(k)` on the main CPU: the flop to 0 and `CPU_LOWER(k)`, whether or not it was 1 (R94). -/
def lowerLine (k : IrqKind) (s : State) : State :=
  emit (.cpuLower k) { s with irq := Irq.set s.irq k false }

/-- `setINT(b)` on the audio CPU: the flop to `b` and `APU_SETINT(b)`. -/
def setApuInt (b : Bool) (s : State) : State :=
  emit (.apuSetInt b) { s with irq := { s.irq with apuInt := b } }

/-- `io.vblankIRQ <- b`, the one field of `io` the engine writes (R36). -/
def setVblankFlag (b : Bool) (s : State) : State := { s with io := { s.io with vblankIRQ := b } }

/-! ### Detectors (R149) -/

/-- `vcounter = 0`: top of the active display (R142). -/
def atTop (s : State) : Bool := s.clock.vcounter == 0

/-- `vcounter = screenHeight()`: entering blanking (R143). -/
def enteringBlank (s : State) : Bool := s.clock.vcounter.toNat == screenHeight s

/-- The countdown was 0 before the decrement: underflow (R145). -/
def hicUnderflow (s : State) : Bool := s.latch.hic == 0

/-- `vcounter + 1 >= frameHeight()`: the frame wraps (R157). -/
def frameWraps (s : State) : Bool := frameHeight s ≤ s.clock.vcounter.toNat + 1

end Sys2Proof.Machine
end

