-- ==== Sys2Proof/Machine/Debug.lean ====
section
/-! DEFINITION. The debug windows and the configuration writes (spec/45_debug_ports.md): the meanings of `DBGRD`, `DBGWR`
and `CFGWR`. -/

namespace Sys2Proof.Machine

/-- `DBGRD space, addr` (R171): the byte goes to the port `dbg_rdata`; nothing else changes. -/
def execDbgrd (sp : Space) (addr : Word) (s : State) : Result :=
  whenQuiescent s (.next { s with dbgRdata := memRead s.stores sp addr })

/-- `DBGWR space, addr, data` (R172). -/
def execDbgwr (sp : Space) (addr : Word) (data : Byte) (s : State) : Result :=
  whenQuiescent s (.next { s with stores := memWrite s.stores sp addr data })

/-- `MAINCPU` sees at once what it wrote itself (R38, R77). -/
def seenAfterCfgwr (fld : CfgField) (val : Byte) (v : Views) : Views :=
  match fld with
  | .hic => v
  | .hbie => v
  | .vbie => v
  | .vblankIRQ => { v with cpu := { v.cpu with vblankIRQ := bitOf val } }
  | .overscan => v
  | .displayWidth => v

/-- `CFGWR fld, val` (R176): refused where the value does not fit the field. -/
def execCfgwr (fld : CfgField) (val : Byte) (s : State) : Result :=
  whenQuiescent s
    (if fld.fits val then .next { s with io := Io.write s.io fld val, seen := seenAfterCfgwr fld val s.seen }
     else .refused (.illegalWord .valueDoesNotFit))

end Sys2Proof.Machine
end

