-- ==== Sys2Proof/Machine/Power.lean ====
section
/-! DEFINITION. The power and reset lifecycle (spec/70_reset_and_hazards.md R210 to R214): the meaning of `POWER`. -/

namespace Sys2Proof.Machine

/-- The execution context is spawned anew (R210, R212): the position and the engine's logical time. The siblings' times
are not this block's and stay (log entry 4), and so does what they can observe, until `SYNC` is next passed (R189, log
entry 30). -/
def powerContext (s : State) : State :=
  { s with seq := ⟨.pre, 0, .pre⟩, time := { s.time with vdp := 0 }, powered := true }

/-- A hard power-on zeroes the three stores, a soft reset keeps them (R211). -/
def powerStores (reset : Bool) (s : State) : State :=
  { s with stores := if reset then s.stores else ⟨[], [], []⟩ }

/-- What is reset either way: every register at its default value (R49, R210). -/
def powerRegisters (s : State) : State :=
  { s with
    vramMode := false
    io := ⟨0, false, false, false, false, false⟩
    latch := ⟨0, false, false⟩
    clock := ⟨0, 0, 0, false⟩
    irq := ⟨false, false, false⟩ }

/-- `POWER reset` (R210), in the source's order; the hooks come last (D32). -/
def doPower (reset : Bool) (s : State) : State :=
  let s := powerContext s
  let s := { s with output := 0 + Config.margin }
  emitAll powerHooks (powerRegisters (powerStores reset s))

/-- Refused when the engine is running and not quiescent; always admitted before the first `POWER` (R210). -/
def execPower (reset : Bool) (s : State) : Result :=
  if s.powered && !quiescent s then .refused .notQuiescent else .next (doPower reset s)

end Sys2Proof.Machine
end

