-- ==== Sys2Proof/Machine/Refresh.lean ====
section
/-! DEFINITION. The frame output window multiplexer (spec/44_refresh.md): the meaning of `REFRESH`. -/

namespace Sys2Proof.Machine

/-- `output - MARGIN`: R48 and R166 say it is never negative; where it would be, the pointer is free (log entry 6). -/
def cursorBack (output : Nat) : Nat :=
  if Config.margin ≤ output then output - Config.margin else Config.cursorUnderflow output

/-- The read pointer: forward by one margin for a short view of a tall frame, backward for a tall view of a short one
(R165). -/
def refreshPtr (pref : Bool) (s : State) : Nat :=
  match pref, s.latch.overscan with
  | false, true => s.output + Config.margin
  | true, false => cursorBack s.output
  | false, false => s.output
  | true, true => s.output

/-- The presented height follows the preference alone (R165). -/
def refreshHeight (pref : Bool) : Nat := if pref then outHTall else Config.outHShort

/-- The event of a `REFRESH` (R165). -/
def refreshEvent (pref : Bool) (s : State) : Event :=
  .sinkRefresh (refreshPtr pref s) (Config.stride * pixelBytes) Config.outWidth (refreshHeight pref)

/-- `REFRESH pref` (R165): no state but the trace is written. -/
def execRefresh (pref : Bool) (s : State) : Result := whenQuiescent s (.next (emit (refreshEvent pref s) s))

/-- The index of a pixel of the window. -/
def windowIndex (pref : Bool) (s : State) (row col : Nat) : Nat :=
  refreshPtr pref s + row * Config.stride + col

/-- What the sink may read, for the duration of a `REFRESH pref` in `s`: a pixel of the window, and nothing outside it or
where the `REFRESH` is refused (R165, R169). -/
def sinkPixel (pref : Bool) (s : State) (row col : Nat) : Option (BitVec 32) :=
  if s.powered && quiescent s && decide (row < refreshHeight pref) && decide (col < Config.outWidth) then
    some (Pixels.read s.outbuf (windowIndex pref s row col))
  else none

end Sys2Proof.Machine
end

