-- ==== Sys2Proof/Machine/Collaborators.lean ====
section
/-! DEFINITION. The rendering and DMA collaborators (spec/00_scope.md R5, R16): they have no step of their own and act
inside the engine's calls `LINE_HOOK`, `RENDER_RUN` and `DMA_RUN`. What they do is out of scope: a call may read all of the
state and writes nothing of it but the stores and, for rendering, the output buffer (R5, R66, R198), where what it writes
is any value (93_implementation_defined.md U10). The writes of a call are therefore free: a list that an opaque function
gives of the state at the call. No two calls of a run meet the same state, since each is made after its event has been
added to the trace, so every sequence of writes is one of the model's (log entry 9). -/

namespace Sys2Proof.Machine

/-- One byte written through a window: the store, the byte address, the byte. -/
abbrev StoreWrite := Space × Word × Byte

/-- One pixel written: the index, taken modulo `BUF_CAP` since the buffer has no other, and the pixel. -/
abbrev PixelWrite := Nat × BitVec 32

end Sys2Proof.Machine

namespace Sys2Proof.Config

/-- The bytes the rendering collaborator writes in a call made in this state (U10, log entry 9). -/
opaque renderStores : Machine.State → List Machine.StoreWrite

/-- The pixels the rendering collaborator writes in a call made in this state (U10, log entry 9). -/
opaque renderPixels : Machine.State → List Machine.PixelWrite

/-- The bytes the DMA collaborator writes in a call made in this state (U10, log entry 9). -/
opaque dmaStores : Machine.State → List Machine.StoreWrite

end Sys2Proof.Config

namespace Sys2Proof.Machine

/-- The stores after some writes, in order. -/
def writeBytes (ws : List StoreWrite) (st : Stores) : Stores :=
  ws.foldl (fun st w => memWrite st w.1 w.2.1 w.2.2) st

/-- The output buffer after some writes, in order. -/
def writePixels (ws : List PixelWrite) (p : Pixels) : Pixels :=
  ws.foldl (fun p w => Pixels.write p (w.1 % bufCap) w.2) p

/-- The rendering collaborator's part of a `LINE_HOOK` or a `RENDER_RUN`. -/
def renderCall (s : State) : State :=
  { s with
    stores := writeBytes (Config.renderStores s) s.stores
    outbuf := writePixels (Config.renderPixels s) s.outbuf }

/-- The DMA collaborator's part of a `DMA_RUN`. -/
def dmaCall (s : State) : State := { s with stores := writeBytes (Config.dmaStores s) s.stores }

end Sys2Proof.Machine
end

