-- ==== Sys2Proof/Machine/Barrier.lean ====
section
/-! DEFINITION. The Step/Synchronize engine (spec/41_step_sync.md): the meanings of `STEP`, `TICK` and `SYNC`. -/

namespace Sys2Proof.Machine

/-- `STEP(clocks)` (R130). -/
def execStep (clocks : Clocks) (s : State) : Result :=
  whenPowered s (.next (enterStep clocks (stepReturn s.seq.ph) s))

/-- `TICK` (R132): the DMA opportunity, then one engine clock. R132 gives it the precondition `seq.rem >= 1` and no effect
where that fails; that it runs the same there is the model's choice (DESIGN CHOICE, safe: no run of the engine gets there,
`State.SeqFits`; log entry 6). -/
def doTick (s : State) : State :=
  let s := dmaCall (emit .dmaRun s)
  setPhase .sync { s with time := { s.time with vdp := s.time.vdp + 1 } }

def execTick (s : State) : Result := whenPowered s (.next (doTick s))

/-- `SYNC` (R133): passed when both siblings have caught up, a hold otherwise. A hold is normal operation: no event, no
state change, and another agent's turn can lift it (R181). -/
def doSync (s : State) : State := if barrierOpen s then passBarrier s else s

def execSync (s : State) : Result := whenPowered s (.next (doSync s))

/-- The engine clocks elapsed in the current line (R131). -/
def lineElapsed (s : State) : Int :=
  match s.seq.ph with
  | .tick => (s.clock.hcounter.toNat : Int) - s.seq.rem.toNat
  | .sync => (s.clock.hcounter.toNat : Int) - s.seq.rem.toNat + 1
  | .pre => s.clock.hcounter.toNat
  | .dot => s.clock.hcounter.toNat
  | .hint => s.clock.hcounter.toNat
  | .endLine => s.clock.hcounter.toNat

end Sys2Proof.Machine
end

