-- ==== Sys2Proof/Machine/Interrupts.lean ====
section
/-! DEFINITION. The interrupt latch and controller (spec/42_interrupts.md): the meanings of `PRE` and `HINT`. -/

namespace Sys2Proof.Machine

/-- The per-line rendering call, on active lines only (R144). -/
def preHook (s : State) : State :=
  if activeLine s then renderCall (emit (.lineHook s.clock.vcounter) s) else s

/-- The pulsed lines fall on every line (R141). -/
def prePulse (s : State) : State := setApuInt false (lowerLine .hblank s)

/-- Top of the active display (R142). -/
def preTop (s : State) : State :=
  if atTop s then
    lowerLine .vblank (setVblankFlag false { s with latch := { s.latch with hic := s.io.hic } })
  else s

/-- The vertical-blank raise, gated by `io.vbie` as sampled now (R143). -/
def raiseVblank (s : State) : State :=
  if s.io.vbie then raiseLine .vblank (setVblankFlag true s) else s

/-- Entering blanking (R143). -/
def preBlanking (s : State) : State := if enteringBlank s then setApuInt true (raiseVblank s) else s

/-- The dispatcher: the dot loop, or `BLANK` (R151, R154). -/
def preDispatch (s : State) : State :=
  if activeLine s then setPhase .dot s else enterStep Config.lineBlank .endLine s

/-- `PRE` (R140). -/
def doPre (s : State) : State := preDispatch (preBlanking (preTop (prePulse (preHook s))))

def execPre (s : State) : Result := whenPowered s (.next (doPre s))

/-- The countdown: decrement, or reload and raise on underflow; `io.hic` and `io.hbie` are sampled now (R145). -/
def hintCount (s : State) : State :=
  if hicUnderflow s then
    let s := { s with latch := { s.latch with hic := s.io.hic } }
    if s.io.hbie then raiseLine .hblank s else s
  else { s with latch := { s.latch with hic := s.latch.hic - 1 } }

/-- `HINT` (R145), ending in the entry action `TAIL` (R153). -/
def doHint (s : State) : State := enterStep Config.lineTail .endLine (hintCount s)

def execHint (s : State) : Result := whenPowered s (.next (doHint s))

end Sys2Proof.Machine
end

