-- ==== Sys2Proof/Machine/Scanline.lean ====
section
/-! DEFINITION. The scanline driver (spec/43_scanline.md): the meanings of `DOT`, `TAIL`, `BLANK` and `END`. -/

namespace Sys2Proof.Machine

/-- One pass of the dot loop: render hook, counter increment, clock step, in that order (R152). -/
def dotPass (s : State) : State :=
  let s := renderCall (emit .renderRun s)
  let s := { s with clock := { s.clock with hdot := addCounter s.clock.hdot 1 } }
  enterStep (BitVec.ofNat 11 (pixelWidth s)) .dot s

/-- `DOT` (R152). -/
def doDot (s : State) : State :=
  if s.clock.hcounter.toNat < Config.lineActive then dotPass s else setPhase .hint s

def execDot (s : State) : Result := whenPowered s (.next (doDot s))

/-- `TAIL`: `STEP(430)` returning to `END` (R153). -/
def execTail (s : State) : Result := whenPowered s (.next (enterStep Config.lineTail .endLine s))

/-- `BLANK`: `STEP(1710)` returning to `END` (R154). -/
def execBlank (s : State) : Result := whenPowered s (.next (enterStep Config.lineBlank .endLine s))

/-- Step 4: both counters of the line to 0 (R156). -/
def endCounters (s : State) : State := { s with clock := { s.clock with hdot := 0, hcounter := 0 } }

/-- Step 5: the line advance; at a frame wrap the field toggles and the overscan latch is taken (R157, R158). The test
reads the old `field` and the old latch. -/
def endAdvance (s : State) : State :=
  if frameWraps s then
    { s with
      clock := { s.clock with vcounter := 0, field := !s.clock.field }
      latch := { s.latch with overscan := s.io.overscan } }
  else { s with clock := { s.clock with vcounter := BitVec.ofNat 16 (s.clock.vcounter.toNat + 1) } }

/-- Step 6: the display-width latch, on every line (R159). -/
def endWidth (s : State) : State := { s with latch := { s.latch with displayWidth := s.io.displayWidth } }

/-- `END` (R156). -/
def doEnd (s : State) : State := setPhase .pre (endWidth (endAdvance (endCounters s)))

def execEnd (s : State) : Result := whenPowered s (.next (doEnd s))

end Sys2Proof.Machine
end

