-- ==== Sys2Proof/Machine/RunControl.lean ====
section
/-! DEFINITION. Run control (spec/30_encoding.md R112; R136, R155): the meanings of `LINE` and `RUN`, which let the engine
run with the siblings cooperating. -/

namespace Sys2Proof.Machine

/-- One micro-operation of the engine with every barrier enabled: at `SYNC` the siblings first catch up (R112). -/
def coopStep (s : State) : State :=
  match s.seq.ph with
  | .pre => doPre s
  | .dot => doDot s
  | .hint => doHint s
  | .tick => doTick s
  | .sync => passBarrier (cooperate s)
  | .endLine => doEnd s

/-- Run until `seq.ph = PRE` is next entered, within the given number of micro-operations. -/
def runToPre : Nat → State → State
  | 0, s => s
  | k + 1, s => if (coopStep s).seq.ph = .pre then coopStep s else runToPre k (coopStep s)

/-- More micro-operations than any line needs from any state: at most 2 + 4094 to leave a `STEP`, 2880 in a dot loop, 862
in the tail. -/
def lineFuel : Nat := 8192

/-- `LINE`: run until the engine next enters `PRE` (R155). -/
def doLine (s : State) : State := runToPre lineFuel s

def execLine (s : State) : Result := whenPowered s (.next (doLine s))

/-- Run up to and including the next `TICK`, within the given number of micro-operations. -/
def runToTick : Nat → State → State
  | 0, s => s
  | k + 1, s => if s.seq.ph = .tick then doTick s else runToTick k (coopStep s)

/-- More micro-operations than lie between two `TICK`s: at most `SYNC`, `END`, `PRE`, `DOT`, `TICK`. -/
def tickFuel : Nat := 6

/-- Run `n` more `TICK`s; the engine then stands at the `SYNC` after the last, not yet passed (R136). -/
def runTicks : Nat → State → State
  | 0, s => s
  | n + 1, s => runTicks n (runToTick tickFuel s)

/-- `RUN n` (R136); `RUN 0` spells no operation (R102). -/
def execRun (n : BitVec 16) (s : State) : Result :=
  whenPowered s (if n = 0 then .refused (.illegalWord .runZero) else .next (runTicks n.toNat s))

end Sys2Proof.Machine
end

