-- ==== Sys2Proof/Machine/Dispatch.lean ====
section
/-! DEFINITION. The meaning of every operation, one arm per row of spec/opcode_table.json. -/

namespace Sys2Proof.Machine

def exec (i : Instr) (s : State) : Host.Outcome State Fault Refusal :=
  match i with
  | .power reset => Sys2Proof.Machine.execPower reset s
  | .refresh pref => Sys2Proof.Machine.execRefresh pref s
  | .dbgrd sp addr => Sys2Proof.Machine.execDbgrd sp addr s
  | .dbgwr sp addr data => Sys2Proof.Machine.execDbgwr sp addr data s
  | .cfgwr fld val => Sys2Proof.Machine.execCfgwr fld val s
  | .line => Sys2Proof.Machine.execLine s
  | .run n => Sys2Proof.Machine.execRun n s
  | .pre => Sys2Proof.Machine.execPre s
  | .dot => Sys2Proof.Machine.execDot s
  | .hint => Sys2Proof.Machine.execHint s
  | .tick => Sys2Proof.Machine.execTick s
  | .sync => Sys2Proof.Machine.execSync s
  | .endLine => Sys2Proof.Machine.execEnd s
  | .step clocks => Sys2Proof.Machine.execStep clocks s
  | .tail => Sys2Proof.Machine.execTail s
  | .blank => Sys2Proof.Machine.execBlank s

end Sys2Proof.Machine
end

