-- ==== Sys2Proof/Machine/Turns.lean ====
section
/-! DEFINITION. One turn of one agent (R16, R17): which instruction a turn runs, and what the turns of the
siblings' domains do. -/

namespace Sys2Proof.Machine

/-- The micro-operation a phase names (R40, R100). -/
def Phase.instr : Phase → Instr
  | .pre => .pre
  | .dot => .dot
  | .hint => .hint
  | .tick => .tick
  | .sync => .sync
  | .endLine => .endLine

/-- Run what a word spells, or refuse it by the reason it spells nothing (R102, R183). -/
def runDecoded (d : Except Reject Instr) (s : State) : Result :=
  match d with
  | .ok i => exec i s
  | .error e => .refused (.illegalWord e)

/-- One turn, taken off the schedule already. -/
def runTurn (t : Turn) (s : State) : Result :=
  match t with
  | .engine => exec s.seq.ph.instr s
  | .command w => runDecoded (decodeCmd w) s
  | .micro w => runDecoded (decodeUop w) s
  | .cpuTime n => whenYielding s (.next { s with time := { s.time with cpu := s.time.cpu + n } })
  | .apuTime n => whenYielding s (.next { s with time := { s.time with apu := s.time.apu + n } })
  | .siblingsPower => whenYielding s (.next { s with time := { s.time with cpu := 0, apu := 0 } })
  | .cpuLook => whenYielding s (.next { s with saw := { s.saw with cpu := cpuReads s } })
  | .apuLook => whenYielding s (.next { s with saw := { s.saw with apu := s.seen.apu } })
  | .decodeStore sp addr v => whenYielding s (.next { s with stores := memWrite s.stores sp addr v })
  | .decodeVramMode b => whenYielding s (.next { s with vramMode := b })

/-- The turn a state is to take next: the head of the schedule, the engine's when nothing is scheduled (R17). -/
def nextTurn (s : State) : Turn := s.schedule.headD .engine

/-- The state with that turn taken off the schedule. -/
def popTurn (s : State) : State := { s with schedule := s.schedule.tail }

/-- Schedule a word of `nbits` bits as the next turn: a `UOP` word of 16 bits goes to the sequencer, a `CMD` word of 32
bits is issued by its agent. -/
def pushWord (s : State) (nbits w : Nat) : State :=
  if nbits ≤ 16 then { s with schedule := .micro (BitVec.ofNat 16 w) :: s.schedule }
  else { s with schedule := .command (BitVec.ofNat 32 w) :: s.schedule }

end Sys2Proof.Machine
end

