-- ==== Sys2Proof/Machine/Ports.lean ====
section
/-! DEFINITION. Views of the state that no step reads: the level outputs of the illustrative port list (R92, D38; its
strobes are the events of the trace) and the text of an operation (R110). -/

namespace Sys2Proof.Machine

/-- The level outputs and the barrier inputs of R92: the flops themselves. What a sibling can observe of them is
`State.seen` (R189). -/
structure Ports where
  irqHblank : Bool
  irqVblank : Bool
  apuInt : Bool
  hcounter : Counter
  hdot : Counter
  vcounter : Counter
  field : Bool
  scrHeight : Nat
  frmHeight : Nat
  pixWidth : Nat
  syncReq : Bool
  cpuOk : Bool
  apuOk : Bool
  dbgRdata : Byte
  deriving DecidableEq, Repr

/-- What the ports show in a state. -/
def ports (s : State) : Ports where
  irqHblank := s.irq.hblank
  irqVblank := s.irq.vblank
  apuInt := s.irq.apuInt
  hcounter := s.clock.hcounter
  hdot := s.clock.hdot
  vcounter := s.clock.vcounter
  field := s.clock.field
  scrHeight := screenHeight s
  frmHeight := frameHeight s
  pixWidth := pixelWidth s
  syncReq := s.seq.ph == .sync
  cpuOk := caughtUp fCpu s.time.cpu s
  apuOk := caughtUp fApu s.time.apu s
  dbgRdata := s.dbgRdata

/-- Window and field names (R110). -/
def spaceText : Space → String
  | .vram => "VRAM"
  | .vsram => "VSRAM"
  | .cram => "CRAM"

def fieldText : CfgField → String
  | .hic => "hic"
  | .hbie => "hbie"
  | .vbie => "vbie"
  | .vblankIRQ => "vblankIRQ"
  | .overscan => "overscan"
  | .displayWidth => "displayWidth"

/-- An operation in the notation of R110, numbers in decimal (R10); a micro-operation is its mnemonic, which R110 does
not write. -/
def instrText : Instr → String
  | .power reset => if reset then "POWER soft" else "POWER hard"
  | .refresh pref => if pref then "REFRESH tall" else "REFRESH short"
  | .dbgrd sp addr => "DBGRD " ++ spaceText sp ++ ", " ++ Nat.repr addr.toNat
  | .dbgwr sp addr data => "DBGWR " ++ spaceText sp ++ ", " ++ Nat.repr addr.toNat ++ ", " ++ Nat.repr data.toNat
  | .cfgwr fld val => "CFGWR " ++ fieldText fld ++ ", " ++ Nat.repr val.toNat
  | .line => "LINE"
  | .run n => "RUN " ++ Nat.repr n.toNat
  | .pre => "PRE"
  | .dot => "DOT"
  | .hint => "HINT"
  | .tick => "TICK"
  | .sync => "SYNC"
  | .endLine => "END"
  | .step clocks => "STEP(" ++ Nat.repr clocks.toNat ++ ")"
  | .tail => "TAIL"
  | .blank => "BLANK"

end Sys2Proof.Machine
end

