-- ==== Sys2Proof/Machine/Pseudo.lean ====
section
/-! DEFINITION. The pseudo-operations `LINES`, `FRAME`, `RUNTO` and `CFG` (spec/30_encoding.md R111): each is run as the
operations it expands to, and ends where one of them is refused. -/

namespace Sys2Proof.Machine

/-- Go on from a next state; a refusal ends the run. -/
def andThen (r : Result) (k : State → Result) : Result :=
  match r with
  | .next s => k s
  | .fault f => .fault f
  | .refused e => .refused e

/-- Operations run in order. -/
def execAll : List Instr → State → Result
  | [], s => .next s
  | i :: is, s => andThen (exec i s) (execAll is)

/-- `LINES n`: `LINE` repeated `n` times. -/
def lines (n : Nat) (s : State) : Result := execAll (List.replicate n .line) s

/-- `LINE` repeated until one ends with `vcounter = 0`, within the given number of lines. -/
def runToTop : Nat → State → Result
  | 0, s => .next s
  | k + 1, s => andThen (exec .line s) fun t => if t.clock.vcounter = 0 then .next t else runToTop k t

/-- `FRAME`: `LINE` until the frame wraps; no frame has 2^16 lines or more (R122). -/
def frame (s : State) : Result := runToTop 65536 s

/-- The engine stands at the start of line `v`. -/
def standsAtLine (v : Counter) (s : State) : Bool := s.seq.ph == .pre && s.clock.vcounter == v

/-- `LINE` repeated zero or more times until `vcounter = v` at `PRE`, within the given number of lines. -/
def runToLine (v : Counter) : Nat → State → Option Result
  | 0, s => if standsAtLine v s then some (.next s) else none
  | k + 1, s =>
    if standsAtLine v s then some (.next s)
    else
      match exec .line s with
      | .next t => runToLine v k t
      | .fault f => some (.fault f)
      | .refused e => some (.refused e)

/-- `RUNTO v`: nothing if line `v` never comes. The rest of the frame in progress and then one frame of each field are at
most 3 * 65535 + 1 lines, and every later line is like one of those. -/
def runTo (v : Counter) (s : State) : Option Result := runToLine v 262144 s

/-- `CFG <word>`: the six `CFGWR`s that set `io` to the fields of the word, in field order 0 to 5 (R111). -/
def cfgCommands (w : CfgWord) : Option (List Instr) :=
  (cfgUnpack w).map fun io =>
    [.cfgwr .hic (Io.read io .hic), .cfgwr .hbie (Io.read io .hbie), .cfgwr .vbie (Io.read io .vbie),
     .cfgwr .vblankIRQ (Io.read io .vblankIRQ), .cfgwr .overscan (Io.read io .overscan),
     .cfgwr .displayWidth (Io.read io .displayWidth)]

end Sys2Proof.Machine
end

