-- ==== Sys2Proof/Safety.lean ====
section
/-! DEFINITION. The terms claims are stated in: the invariant of every reachable state, a hold that is never lifted, the
bound the siblings keep to, and the host's duty for a refresh. -/

namespace Sys2Proof.Machine

/-! ### The invariant of reachable states -/

/-- `0 <= vcounter < frameHeight()` (R22). -/
def State.LineInFrame (s : State) : Prop := s.clock.vcounter.toNat < frameHeight s

/-- The engine stands inside a `STEP`: at `TICK` or `SYNC`. -/
def State.stepping (s : State) : Bool := s.seq.ph == .tick || s.seq.ph == .sync

/-- The engine is in the dot loop of an active line: at `DOT`, or inside a `STEP` that returns there (R152). -/
def State.inDotLoop (s : State) : Bool := s.seq.ph == .dot || (s.stepping && s.seq.ret == .dot)

/-- The engine is in the last `STEP` of a line, or at the `END` after it (R153, R154). -/
def State.inLastStep (s : State) : Bool := s.seq.ph == .endLine || (s.stepping && s.seq.ret == .endLine)

/-- The registers `seq.rem` and `seq.ret` fit the phase (R41, R42, R48): inside a `STEP` a clock is left to run and the
return phase is `DOT` or `END`, elsewhere no clock is left. -/
def State.SeqFits (s : State) : Prop :=
  (s.stepping = true → 1 ≤ s.seq.rem.toNat ∧ s.seq.rem.toNat ≤ s.clock.hcounter.toNat ∧ s.seq.ret ≠ .pre) ∧
    (s.stepping = false → s.seq.rem = 0)

/-- Where the line's counters stand in each part of a line (R20, R21, R24, R152 to R154, R163). -/
def State.CountersFit (s : State) : Prop :=
  (s.seq.ph = .pre → s.clock.hcounter = 0 ∧ s.clock.hdot = 0) ∧
    (s.inDotLoop = true →
      activeLine s = true ∧ s.clock.hcounter.toNat = s.clock.hdot.toNat * pixelWidth s ∧
        s.clock.hdot.toNat ≤ activeWidth s) ∧
    (s.seq.ph = .hint →
      activeLine s = true ∧ s.clock.hcounter.toNat = Config.lineActive ∧ s.clock.hdot.toNat = activeWidth s) ∧
    (s.inLastStep = true →
      s.clock.hcounter.toNat = Config.lineTotal ∧
        (activeLine s = true → s.clock.hdot.toNat = activeWidth s) ∧ (activeLine s = false → s.clock.hdot.toNat = 0))

/-- When each interrupt line can be high (R147, R191). -/
def State.LinesFit (s : State) : Prop :=
  (s.seq.ph ≠ .pre →
      (s.irq.hblank = true → activeLine s = true ∧ s.inLastStep = true) ∧
        (s.irq.vblank = true → activeLine s = false) ∧
        (s.irq.apuInt = true ↔ s.clock.vcounter.toNat = screenHeight s)) ∧
    (s.seq.ph = .pre →
      (s.irq.hblank = true → 0 < s.clock.vcounter.toNat ∧ s.clock.vcounter.toNat ≤ screenHeight s) ∧
        (s.irq.vblank = true → s.clock.vcounter = 0 ∨ screenHeight s < s.clock.vcounter.toNat))

/-- The engine's time and the line's elapsed clocks agree modulo a line: every line is 1710 clocks (R131, R160, R234,
R235). -/
def State.ClockFits (s : State) : Prop := (s.time.vdp : Int) % 1710 = lineElapsed s % 1710

/-- The stores and the output buffer are in canonical form. -/
def State.MemoryFits (s : State) : Prop := s.stores.wf = true ∧ s.outbuf.wf = true

/-- The siblings can never observe the two lines of the main CPU high together (R189, R191). -/
def State.SeenFits (s : State) : Prop := ¬ (s.seen.cpu.hblank = true ∧ s.seen.cpu.vblank = true)

/-- A turn some agent of the spec takes: a micro-operation word never reaches the engine from outside (R102). -/
def Turn.ofAgent : Turn → Bool
  | .engine => true
  | .command _ => true
  | .micro _ => false
  | .cpuTime _ => true
  | .apuTime _ => true
  | .siblingsPower => true
  | .cpuLook => true
  | .apuLook => true
  | .decodeStore _ _ _ => true
  | .decodeVramMode _ => true

/-- Only turns of the spec's agents are scheduled. -/
def State.ScheduleFits (s : State) : Prop := ∀ t ∈ s.schedule, t.ofAgent = true

/-- What holds in every state a powered block reaches when only the spec's agents take turns. -/
structure State.Inv (s : State) : Prop where
  powered : s.powered = true
  line : s.LineInFrame
  seq : s.SeqFits
  counters : s.CountersFit
  levels : s.LinesFit
  clock : s.ClockFits
  cursor : s.output = Config.margin
  memory : s.MemoryFits
  seen : s.SeenFits
  schedule : s.ScheduleFits

/-! ### The horizontal countdown (R146) -/

/-- The countdown stands where the period law puts it, for the reload value that `io.hic` now holds: on active line `v`
it is `io.hic - v mod (io.hic + 1)` until `HINT` and `io.hic - (v + 1) mod (io.hic + 1)` after it. At the `PRE` of line 0
it may hold anything, since that `PRE` reloads it (R142). -/
def State.CountdownFits (s : State) : Prop :=
  activeLine s = true → ¬ (s.seq.ph = .pre ∧ s.clock.vcounter = 0) →
    s.latch.hic.toNat =
      s.io.hic.toNat -
        (if s.inLastStep then s.clock.vcounter.toNat + 1 else s.clock.vcounter.toNat) % (s.io.hic.toNat + 1)

/-! ### Holds, bounds and duties -/

/-- The engine stands at a barrier a sibling has not reached (R181). -/
def State.holding (s : State) : Bool := s.powered && s.seq.ph == .sync && !barrierOpen s

/-- A hold that nothing lifts: no other agent takes a turn any more (R182). -/
def State.Stuck (s : State) : Prop := s.holding = true ∧ s.schedule = []

/-- Neither sibling leads the engine by more than the slack, in the units of R134's comparison (R78; log entry 11). -/
def State.WithinSlack (s : State) : Prop :=
  s.time.cpu * fSys ≤ s.time.vdp * Config.clockDiv * fCpu + Config.slack ∧
    s.time.apu * fSys ≤ s.time.vdp * Config.clockDiv * fApu + Config.slack

/-- Where a `REFRESH` describes the frame just rendered: during vertical blanking, before the wrap (R168, R227). -/
def State.RefreshDescribesFrame (s : State) : Prop :=
  quiescent s = true ∧ screenHeight s ≤ s.clock.vcounter.toNat ∧ s.clock.vcounter.toNat < frameHeight s

end Sys2Proof.Machine
end

