-- ==== Sys2Proof/Certificates/Slice0/Obligations.lean ====
section
/-! DEFINITION. The statements for the provers, in the order of OBLIGATIONS.json. Each docstring names the rule of spec/
it formalises. A clause that rests on a decision of the spec (D<n>) or on an entry of the assumption log says so. Nothing
here is proved. -/

open Sys2Proof Sys2Proof.Machine

namespace Sys2Proof.Spec

/-! ### Words of the statements -/

/-- A host command may be issued: before the first `POWER`, or at a quiescent point (R17, R210). -/
def PowerAdmitted (s : State) : Prop := s.powered = false ∨ quiescent s = true

/-- A `HOST` command other than `POWER`, or a `CFGWR`, may be issued (R17). -/
def CommandAdmitted (s : State) : Prop := s.powered = true ∧ quiescent s = true

/-- A line starts here: the engine stands at `PRE` with its two counters cleared (R24). -/
def AtLineStart (s : State) : Prop :=
  s.powered = true ∧ s.seq.ph = .pre ∧ s.clock.hcounter = 0 ∧ s.clock.hdot = 0

/-- Everything no micro-operation of the engine writes by itself (R198): the cursor, the flag of the register decode, the
siblings' times, what they saw, and the model's own fields; and, but for a passed `SYNC` and for the calls of the
collaborators, what the siblings can observe, the stores and the output buffer. -/
def EngineFrame (s t : State) : Prop :=
  t.stores = s.stores ∧ t.outbuf = s.outbuf ∧ t.output = s.output ∧ t.vramMode = s.vramMode ∧
    t.powered = s.powered ∧ t.seen = s.seen ∧ t.saw = s.saw ∧ t.dbgRdata = s.dbgRdata ∧ t.schedule = s.schedule ∧
    t.time.cpu = s.time.cpu ∧ t.time.apu = s.time.apu ∧ t.freeIdx = s.freeIdx

/-- What a run of the engine with the siblings cooperating leaves alone; the siblings advance their own times (R112). -/
def RunFrame (s t : State) : Prop :=
  t.output = s.output ∧ t.vramMode = s.vramMode ∧ t.powered = s.powered ∧ t.saw = s.saw ∧ t.dbgRdata = s.dbgRdata ∧
    t.schedule = s.schedule ∧ s.time.cpu ≤ t.time.cpu ∧ s.time.apu ≤ t.time.apu

/-- The bytes the collaborators write in the calls a micro-operation makes (U10): the rendering collaborator's in the
`LINE_HOOK` of a `PRE` and the `RENDER_RUN` of a `DOT`, the DMA's in the `DMA_RUN` of a `TICK`. -/
def storeWrites (i : Instr) (s : State) : List StoreWrite :=
  match i with
  | .pre => if activeLine s = true then Config.renderStores (emit (.lineHook s.clock.vcounter) s) else []
  | .dot => if s.clock.hcounter.toNat < 1280 then Config.renderStores (emit .renderRun s) else []
  | .tick => Config.dmaStores (emit .dmaRun s)
  | _ => []

/-- The pixels the rendering collaborator writes in the call a micro-operation makes (U10). -/
def pixelWrites (i : Instr) (s : State) : List PixelWrite :=
  match i with
  | .pre => if activeLine s = true then Config.renderPixels (emit (.lineHook s.clock.vcounter) s) else []
  | .dot => if s.clock.hcounter.toNat < 1280 then Config.renderPixels (emit .renderRun s) else []
  | _ => []

/-- After `k` micro-operations with the siblings cooperating, every byte and every pixel that no call on the way wrote
reads as before. -/
def RunMemory (k : Nat) (s t : State) : Prop :=
  (∀ sp a,
    (∀ j, j < k → ∀ x ∈ storeWrites (coopStep^[j] s).seq.ph.instr (coopStep^[j] s), (x.1, x.2.1) ≠ (sp, a)) →
      memRead t.stores sp a = memRead s.stores sp a) ∧
  (∀ n,
    (∀ j, j < k → ∀ x ∈ pixelWrites (coopStep^[j] s).seq.ph.instr (coopStep^[j] s), x.1 % bufCap ≠ n) →
      Pixels.read t.outbuf n = Pixels.read s.outbuf n)

/-- `n` pairs `DMA_RUN SYNCED` (R162). -/
def clockPairs (n : Nat) : List Event := (List.replicate n [Event.dmaRun, Event.synced]).flatten

/-- The events of `PRE`, in the order of R140. -/
def preEvents (s : State) : List Event :=
  (if s.clock.vcounter.toNat < screenHeight s then [Event.lineHook s.clock.vcounter] else []) ++
    [Event.cpuLower .hblank, Event.apuSetInt false] ++
    (if s.clock.vcounter.toNat = 0 then [Event.cpuLower .vblank] else []) ++
    (if s.clock.vcounter.toNat = screenHeight s then
      (if s.io.vbie = true then [Event.cpuRaise .vblank] else []) ++ [Event.apuSetInt true]
    else [])

/-- `latch.hic` as `HINT` finds it on the line that starts in `s`: reloaded at line 0 (R142). -/
def countAtHint (s : State) : BitVec 8 := if s.clock.vcounter.toNat = 0 then s.io.hic else s.latch.hic

/-- The events of the whole line that starts in `s`, as the regular expressions of R162 give them. -/
def lineEvents (s : State) : List Event :=
  preEvents s ++
    if s.clock.vcounter.toNat < screenHeight s then
      (List.replicate (activeWidth s) (Event.renderRun :: clockPairs (pixelWidth s))).flatten ++
        (if countAtHint s = 0 ∧ s.io.hbie = true then [Event.cpuRaise .hblank] else []) ++ clockPairs 430
    else clockPairs 1710

/-- The line counter after the line that starts with `v` (R157). -/
def nextLine (s : State) : Nat :=
  if frameHeight s ≤ s.clock.vcounter.toNat + 1 then 0 else s.clock.vcounter.toNat + 1

/-- The `n` lines that start in `s` end in `t`. -/
def LinesTo (n : Nat) (s t : State) : Prop := lines n s = .next t

/-- The first `n` steps of the machine from `r 0`: whatever the agents' turns are, one step leads from each state to the
next. -/
def RunOf (r : Nat → State) (n : Nat) : Prop := ∀ i, i < n → step (r i) = .next (r (i + 1))

/-- A turn of the engine or of another agent other than `POWER`, run control and the model's own `micro`: what can come
between two micro-operations of one invocation of the scanline driver (R17, R76). -/
def plainTurn (t : Turn) : Prop :=
  match t with
  | .micro _ => False
  | .command w => ∀ i, decodeCmd w = .ok i → i.agent ≠ .runControl ∧ ∀ reset, i ≠ .power reset
  | _ => True

/-- The events of `TICK`s and `SYNC`s in a trace. -/
def clockEvents (es : List Event) : List Event := es.filter fun e => e == .dmaRun || e == .synced

end Sys2Proof.Spec

open Sys2Proof.Spec

/-! ### Encodings (30_encoding.md) -/

/-- Every well-formed operation is read back from the word it is written as: no bit of an encoding is dropped (layouts
of R97 to R100, decisions D24 and D25). -/
def Obligations.DecodeAfterEncode : Prop :=
  ∀ i : Instr, i.wellFormed = true → decode (encode i) = .ok i

/-- A word that decodes has one meaning and one spelling: what it decodes to is well formed and encodes to that word. -/
def Obligations.EncodeAfterDecode : Prop :=
  ∀ (c : Code) (i : Instr), decode c = .ok i → i.wellFormed = true ∧ encode i = c

/-- R102 (decision D27): exactly the command words and micro-operation words it names are refused, and the step that meets
one is refused with its reason. `.refused` is an outcome without a next state (log entry 15). That a step can meet a
micro-operation word at all is the model's own: its turn `micro` gives the engine one (log entry 10), where R102 says such
a word never reaches the engine. -/
def Obligations.RefusedWords : Prop :=
  (∀ w : CmdWord,
    (∃ e, decodeCmd w = .error e) ↔
      ((cmdOp w).toNat = 0 ∨ 8 ≤ (cmdOp w).toNat) ∨
      ((cmdOp w).toNat ∈ [1, 2] ∧ (2 ≤ (cmdSub w).toNat ∨ cmdA16 w ≠ 0 ∨ cmdA8 w ≠ 0)) ∨
      ((cmdOp w).toNat = 3 ∧ (3 ≤ (cmdSub w).toNat ∨ cmdA8 w ≠ 0)) ∨
      ((cmdOp w).toNat = 4 ∧ 3 ≤ (cmdSub w).toNat) ∨
      ((cmdOp w).toNat = 5 ∧
        (6 ≤ (cmdSub w).toNat ∨ cmdA16 w ≠ 0 ∨ (1 ≤ (cmdSub w).toNat ∧ 1 < (cmdA8 w).toNat))) ∨
      ((cmdOp w).toNat = 6 ∧ (cmdSub w ≠ 0 ∨ cmdA16 w ≠ 0 ∨ cmdA8 w ≠ 0)) ∨
      ((cmdOp w).toNat = 7 ∧ (cmdSub w ≠ 0 ∨ cmdA8 w ≠ 0 ∨ cmdA16 w = 0))) ∧
  (∀ w : UopWord,
    (∃ e, decodeUop w = .error e) ↔
      (uopCode w).toNat ∈ [6, 7, 9, 10, 11, 12, 13, 14, 15] ∨ w.getLsbD 11 = true ∨
        (uopClocks w ≠ 0 ∧ (uopCode w).toNat ≠ 8)) ∧
  (∀ (s : State) (w : CmdWord) (e : Reject) (rest : List Turn),
    decodeCmd w = .error e → step { s with schedule := .command w :: rest } = .refused (.illegalWord e)) ∧
  (∀ (s : State) (w : UopWord) (e : Reject) (rest : List Turn),
    decodeUop w = .error e → step { s with schedule := .micro w :: rest } = .refused (.illegalWord e))

/-- R98, R100: a word that decodes lies in the row of what it decodes to, and in no other row but that of `STEP`, which
the words of `TAIL` and `BLANK` also match. -/
def Obligations.WordsLieInTheirRows : Prop :=
  ∀ (c : Code) (i : Instr), decode c = .ok i →
    i.row ∈ cmdRows ++ uopRows ∧ i.row.matches c = true ∧
      ∀ r ∈ cmdRows ++ uopRows, r.matches c = true → r = i.row ∨ (r.mnemonic = "STEP" ∧ (i = .tail ∨ i = .blank))

/-- Some words of the spec's own tables and vectors (V1 to V9), one per operation: a sanity statement. -/
def Obligations.VectorWordsDecode : Prop :=
  decodeCmd 0x11000000 = .ok (.power true) ∧ decodeCmd 0x21000000 = .ok (.refresh true) ∧
    decodeCmd 0x31004F00 = .ok (.dbgrd .vsram 0x004F) ∧ decodeCmd 0x42007F5A = .ok (.dbgwr .cram 0x007F 0x5A) ∧
    decodeCmd 0x55000001 = .ok (.cfgwr .displayWidth 1) ∧ decodeCmd 0x60000000 = .ok .line ∧
    decodeCmd 0x70050100 = .ok (.run 0x0501) ∧ decodeUop 0x0000 = .ok .pre ∧ decodeUop 0x1000 = .ok .dot ∧
    decodeUop 0x2000 = .ok .hint ∧ decodeUop 0x3000 = .ok .tick ∧ decodeUop 0x4000 = .ok .sync ∧
    decodeUop 0x5000 = .ok .endLine ∧ decodeUop 0x8005 = .ok (.step 5) ∧ decodeUop 0x81AE = .ok .tail ∧
    decodeUop 0x86AE = .ok .blank

/-- R96: the `CFG` word packs the six fields at the bits it names; a word with a reserved bit is refused; packing and
unpacking are inverse. -/
def Obligations.CfgWordRoundTrip : Prop :=
  (∀ io : Io,
    cfgUnpack (cfgPack io) = some io ∧ (cfgPack io).extractLsb' 0 8 = io.hic ∧ (cfgPack io).getLsbD 8 = io.hbie ∧
      (cfgPack io).getLsbD 9 = io.vbie ∧ (cfgPack io).getLsbD 10 = io.overscan ∧
      (cfgPack io).getLsbD 11 = io.displayWidth ∧ (cfgPack io).getLsbD 12 = io.vblankIRQ) ∧
  (∀ (w : CfgWord) (io : Io), cfgUnpack w = some io → cfgPack io = w) ∧
  (∀ w : CfgWord, cfgUnpack w = none ↔ (w.getLsbD 13 || w.getLsbD 14 || w.getLsbD 15) = true)

/-! ### One step -/

/-- A step runs the decoded operation: with nothing scheduled, or the engine's turn at the head, it is `exec` of the
micro-operation `seq.ph` names; with a word at the head that decodes, it is `exec` of what the word spells, the word
taken off the schedule. -/
def Obligations.StepRunsTheDecodedOperation : Prop :=
  (∀ s : State, s.schedule = [] → step s = exec s.seq.ph.instr s) ∧
  (∀ (s : State) (rest : List Turn),
    step { s with schedule := .engine :: rest } = exec s.seq.ph.instr { s with schedule := rest }) ∧
  (∀ (s : State) (w : CmdWord) (i : Instr) (rest : List Turn), decodeCmd w = .ok i →
    step { s with schedule := .command w :: rest } = exec i { s with schedule := rest }) ∧
  (∀ (s : State) (w : UopWord) (i : Instr) (rest : List Turn), decodeUop w = .ok i →
    step { s with schedule := .micro w :: rest } = exec i { s with schedule := rest }) ∧
  (∀ (s : State) (nbits w : Nat) (i : Instr), decodeTableWord nbits w = some i →
    step (s.withFetchWord nbits w) = exec i s)

/-- R150: the phase transitions, complete. Every turn of every agent of the spec but run control, which repeats the
engine's: the engine's turn, scheduled or not, moves `seq` by the table; `POWER` moves it to `PRE`; every other command
and every turn of a sibling's domain leaves `seq` alone. In every state whose `seq.rem` and `seq.ret` fit the phase. -/
def Obligations.PhaseTransitions : Prop :=
  (∀ (reset : Bool) (s t : State), exec (.power reset) s = .next t → t.seq.ph = .pre) ∧
  (∀ (i : Instr) (s t : State), i.agent = .host ∨ i.agent = .mainCpu → (∀ reset, i ≠ .power reset) →
    exec i s = .next t → t.seq = s.seq) ∧
  (∀ s t : State, plainTurn (nextTurn s) → nextTurn s ≠ .engine → step s = .next t → t.seq = s.seq) ∧
  ∀ s t : State, s.SeqFits → nextTurn s = .engine → step s = .next t →
    (s.seq.ph = .pre → activeLine s = true → t.seq.ph = .dot) ∧
    (s.seq.ph = .pre → activeLine s = false → t.seq = ⟨.tick, 1710, .endLine⟩) ∧
    (s.seq.ph = .dot → s.clock.hcounter.toNat < 1280 →
      t.seq.ph = .tick ∧ t.seq.rem.toNat = pixelWidth s ∧ t.seq.ret = .dot) ∧
    (s.seq.ph = .dot → 1280 ≤ s.clock.hcounter.toNat → t.seq.ph = .hint) ∧
    (s.seq.ph = .hint → t.seq = ⟨.tick, 430, .endLine⟩) ∧
    (s.seq.ph = .tick → t.seq.ph = .sync) ∧
    (s.seq.ph = .sync → barrierOpen s = true → 1 < s.seq.rem.toNat → t.seq.ph = .tick) ∧
    (s.seq.ph = .sync → barrierOpen s = true → s.seq.rem.toNat = 1 →
      t.seq.ph = s.seq.ret.phase ∧ (t.seq.ph = .dot ∨ t.seq.ph = .endLine)) ∧
    (s.seq.ph = .sync → barrierOpen s = false → t.seq.ph = .sync) ∧
    (s.seq.ph = .endLine → t.seq.ph = .pre)

/-! ### Power (70_reset_and_hazards.md) -/

/-- R210, with the reset values of R49 (the spec's decisions D5, D6, D13 and D32): an admitted `POWER` completes and
leaves every register at its reset value, the stores zero after a hard power-on and unchanged after a soft reset, the
output buffer unchanged, five hooks appended to the trace. The siblings' times and the model's own fields stay (log
entry 4), and so does what the siblings can observe (log entry 30). -/
def Obligations.PowerResetsTheBlock : Prop :=
  ∀ (reset : Bool) (s : State),
    PowerAdmitted s →
      ∃ t, exec (.power reset) s = .next t ∧ t.seq = ⟨.pre, 0, .pre⟩ ∧ t.time = ⟨0, s.time.cpu, s.time.apu⟩ ∧
        t.output = 20480 ∧ t.vramMode = false ∧ t.io = ⟨0, false, false, false, false, false⟩ ∧
        t.latch = ⟨0, false, false⟩ ∧ t.clock = ⟨0, 0, 0, false⟩ ∧ t.irq = ⟨false, false, false⟩ ∧
        t.powered = true ∧
        (∀ sp a, memRead t.stores sp a = if reset = true then memRead s.stores sp a else 0) ∧
        t.outbuf = s.outbuf ∧
        t.trace =
          s.trace ++
            [.powerHook .planeA, .powerHook .window, .powerHook .planeB, .powerHook .sprite, .powerHook .dma] ∧
        t.seen = s.seen ∧ t.saw = s.saw ∧ t.dbgRdata = s.dbgRdata ∧ t.schedule = s.schedule ∧ t.freeIdx = s.freeIdx

/-- R211: the source's scenario. After a hard power-on, a byte written to VRAM address 0 reads back and address 1 does
not change; a second hard power-on clears it, a soft reset in the same place keeps it; and the two kinds of `POWER`
differ in the stores only. -/
def Obligations.HardAndSoftPowerDifferInTheStores : Prop :=
  ∀ s : State, PowerAdmitted s →
    (∃ t u h k, exec (.power false) s = .next t ∧ exec (.dbgwr .vram 0 0xFF) t = .next u ∧
      memRead u.stores .vram 0 = 0xFF ∧ memRead u.stores .vram 1 = 0 ∧
      exec (.power false) u = .next h ∧ memRead h.stores .vram 0 = 0 ∧
      exec (.power true) u = .next k ∧ memRead k.stores .vram 0 = 0xFF) ∧
    (∃ h k, exec (.power false) s = .next h ∧ exec (.power true) s = .next k ∧
      { h with stores := s.stores } = k)

/-- R212: `POWER` at a barrier abandons the line: it adds nothing to the trace but the hooks, and with nothing scheduled
the next step is the `PRE` of line 0, which lowers all three lines. That the hooks are `POWER`'s only events and that
`LINE_HOOK` comes first in `PRE` are the spec's choices D6, D32 and D29 (log entry 22). -/
def Obligations.PowerAbandonsTheLine : Prop :=
  ∀ (reset : Bool) (s : State), s.powered = true → s.seq.ph = .sync → s.schedule = [] →
    ∃ t u, exec (.power reset) s = .next t ∧ t.trace = s.trace ++ powerHooks ∧ t.irq = ⟨false, false, false⟩ ∧
      step t = .next u ∧ u.seq.ph = .dot ∧ u.clock = ⟨0, 0, 0, false⟩ ∧ u.irq = ⟨false, false, false⟩ ∧
      u.trace = t.trace ++ [.lineHook 0, .cpuLower .hblank, .apuSetInt false, .cpuLower .vblank]

/-- R197, R217 (decision D31): before the first `POWER` no operation but `POWER` is admitted. -/
def Obligations.OnlyPowerBeforeTheFirstPower : Prop :=
  ∀ (i : Instr) (s : State), s.powered = false → (∀ reset, i ≠ .power reset) → exec i s = .refused .notPowered

/-- R49, R217: `State.reset` is what a hard power-on makes of a block whose trace is empty and whose environment is at
its start (the siblings' times 0, R45, and nothing raised in their view, log entry 30), whatever its registers and stores
held before. -/
def Obligations.ResetIsAHardPowerOn : Prop :=
  ∀ s : State, s.powered = false → s.log = [] → s.time.cpu = 0 → s.time.apu = 0 → s.outbuf = [] →
    s.seen = quietViews → s.saw = quietViews → s.dbgRdata = 0 → s.schedule = [] → s.freeIdx = 0 →
      exec (.power false) s = .next State.reset

/-! ### The debug windows and the configuration (20_memory.md, 45_debug_ports.md) -/

/-- R17, R74, R183 (decision D17): a command of `HOST`, `POWER` among them, and a `CFGWR` are refused while a powered engine
stands at a phase other than `PRE` or `SYNC`. -/
def Obligations.CommandsRefusedWhileTheEngineRuns : Prop :=
  ∀ (i : Instr) (s : State), s.powered = true → quiescent s = false → i.agent = .host ∨ i.agent = .mainCpu →
    exec i s = .refused .notQuiescent

/-- R171, R63: `DBGRD` answers the high byte of word `addr >> 1` at an even address and the low byte at an odd one, 0 out
of range; nothing but the answered byte changes, which the model holds in the port `dbg_rdata` (log entry 13). -/
def Obligations.DbgrdAnswersTheByte : Prop :=
  ∀ (sp : Space) (addr : Word) (s : State), CommandAdmitted s →
    ∃ b, exec (.dbgrd sp addr) s = .next { s with dbgRdata := b } ∧
      (Space.limit sp ≤ addr.toNat → b = 0) ∧
      (addr.toNat < Space.limit sp → addr.toNat % 2 = 0 →
        b = (Memory.word (s.stores.get sp) (addr.toNat / 2)).extractLsb' 8 8) ∧
      (addr.toNat < Space.limit sp → addr.toNat % 2 = 1 →
        b = (Memory.word (s.stores.get sp) (addr.toNat / 2)).extractLsb' 0 8)

/-- R172, R64: `DBGWR` replaces one byte of word `addr >> 1` and keeps the other; every other word of every window
reads as before; out of range nothing changes; no other state changes. -/
def Obligations.DbgwrReplacesOneByte : Prop :=
  ∀ (sp : Space) (addr : Word) (v : Byte) (s : State), CommandAdmitted s →
    ∃ st, exec (.dbgwr sp addr v) s = .next { s with stores := st } ∧
      (Space.limit sp ≤ addr.toNat → st = s.stores) ∧
      (addr.toNat < Space.limit sp →
        (∀ k, k ≠ addr.toNat / 2 → Memory.word (st.get sp) k = Memory.word (s.stores.get sp) k) ∧
        (∀ sp', sp' ≠ sp → st.get sp' = s.stores.get sp') ∧
        (addr.toNat % 2 = 0 →
          Memory.word (st.get sp) (addr.toNat / 2) =
            v ++ (Memory.word (s.stores.get sp) (addr.toNat / 2)).extractLsb' 0 8) ∧
        (addr.toNat % 2 = 1 →
          Memory.word (st.get sp) (addr.toNat / 2) =
            (Memory.word (s.stores.get sp) (addr.toNat / 2)).extractLsb' 8 8 ++ v))

/-- R174: the round trip. In range, a `DBGWR` then a `DBGRD` of the same address answers the byte written; the other
byte of the word, and every other address of every window, reads as before; out of range the write changes nothing and
the read answers 0. That the answer stands in the port `dbg_rdata` after the step is the model's choice (log entry 13). -/
def Obligations.DebugRoundTrip : Prop :=
  ∀ (sp : Space) (a : Word) (v : Byte) (s : State), CommandAdmitted s →
    ∃ t, exec (.dbgwr sp a v) s = .next t ∧
      (∃ u, exec (.dbgrd sp a) t = .next u ∧ u.dbgRdata = if a.toNat < Space.limit sp then v else 0) ∧
      (∀ sp' b, (sp', b) ≠ (sp, a) → memRead t.stores sp' b = memRead s.stores sp' b) ∧
      (a.toNat < Space.limit sp →
        ∃ u, exec (.dbgrd sp (a ^^^ 1)) t = .next u ∧ u.dbgRdata = memRead s.stores sp (a ^^^ 1)) ∧
      (Space.limit sp ≤ a.toNat → t = s)

/-- R72: nothing in a store affects the timing, and nothing in the output buffer does. With any other contents of the
stores and the buffer every micro-operation of the engine, `LINE` and `RUN` do exactly the same to everything but the
stores and the buffer themselves, where the collaborators write what they like (log entry 9). -/
def Obligations.StoresDoNotAffectTheEngine : Prop :=
  ∀ (i : Instr) (s t : State) (st : Stores) (p : Pixels), i.agent = .engine ∨ i.agent = .runControl →
    exec i s = .next t →
      ∃ u, exec i { s with stores := st, outbuf := p } = .next u ∧
        { u with stores := t.stores, outbuf := t.outbuf } = t

/-- R176 (decision D36): `CFGWR` writes the one field it selects, at once, and no other state of the block; it is refused
where the value does not fit the field. `MAINCPU` sees the flag it wrote itself (log entry 30). -/
def Obligations.CfgwrWritesOneField : Prop :=
  ∀ (fld : CfgField) (val : Byte) (s : State), CommandAdmitted s →
    ((fld = .hic ∨ val.toNat ≤ 1) →
      ∃ io seen, exec (.cfgwr fld val) s = .next { s with io := io, seen := seen } ∧ Io.read io fld = val ∧
        (∀ g, g ≠ fld → Io.read io g = Io.read s.io g) ∧ (fld ≠ .vblankIRQ → seen = s.seen) ∧
        (fld = .vblankIRQ →
          seen = { s.seen with cpu := { s.seen.cpu with vblankIRQ := decide (val = 1) } })) ∧
    (fld ≠ .hic → 1 < val.toNat → exec (.cfgwr fld val) s = .refused (.illegalWord .valueDoesNotFit))

/-- R111 (decision D28): the pseudo-operation `CFG <word>` expands to six `CFGWR`s, one of each field in field order 0 to
5, that set `io` to the fields of the word and change nothing else of the block; `MAINCPU` sees the flag it wrote itself
(log entry 30). -/
def Obligations.CfgExpansionSetsTheSnapshot : Prop :=
  ∀ (w : CfgWord) (io : Io) (s : State), CommandAdmitted s → cfgUnpack w = some io →
    ∃ v0 v1 v2 v3 v4 v5,
      cfgCommands w =
        some [.cfgwr .hic v0, .cfgwr .hbie v1, .cfgwr .vbie v2, .cfgwr .vblankIRQ v3, .cfgwr .overscan v4,
          .cfgwr .displayWidth v5] ∧
      execAll
          [.cfgwr .hic v0, .cfgwr .hbie v1, .cfgwr .vbie v2, .cfgwr .vblankIRQ v3, .cfgwr .overscan v4,
            .cfgwr .displayWidth v5] s =
        .next
          { s with
            io := io
            seen := { s.seen with cpu := { s.seen.cpu with vblankIRQ := io.vblankIRQ } } }

/-- R111 (decision D28): `RUNTO v` ends after the fewest `LINE`s, zero or more, that bring the engine to the start of
line `v`, and it ends whenever some number of `LINE`s does; from every powered state. -/
def Obligations.RunToFindsTheLine : Prop :=
  ∀ (v : Counter) (s t : State), s.powered = true →
    (runTo v s = some (.next t) ↔
      ∃ n, LinesTo n s t ∧ t.seq.ph = .pre ∧ t.clock.vcounter = v ∧
        ∀ m, m < n → ∀ u, LinesTo m s u → ¬ (u.seq.ph = .pre ∧ u.clock.vcounter = v))

/-- S5, R158, R159, R222, R223: a write to `io.overscan` or to `io.displayWidth` changes nothing about the line in
progress, wherever in it the write lands: the rest of the line has the same events and counters, and, where the frame
does not wrap at its end, leaves the same overscan latch, so the same heights. That the line reads the latches and never
`io` is the spec's choice (D11 for the display width, which the spec flags as able to err toward proving; log entry 21). -/
def Obligations.ModeWriteSparesTheLineInProgress : Prop :=
  ∀ (s : State) (o w : Bool) (t u : State),
    exec .line s = .next t →
    exec .line { s with io := { s.io with overscan := o, displayWidth := w } } = .next u →
    u.trace = t.trace ∧ u.clock = t.clock ∧ u.irq = t.irq ∧ u.seq = t.seq ∧ u.time = t.time ∧
      u.latch.hic = t.latch.hic ∧ (t.clock.vcounter ≠ 0 → u.latch.overscan = t.latch.overscan)

/-! ### The interrupt latch (42_interrupts.md) -/

/-- R140 to R144: the result of `PRE`, whole. `LINE_HOOK` first is the spec's choice D29 (log entry 22), and that
`hcounter` has grown by the 1710 clocks of a blanking line at entry is D8 (log entry 19). The collaborator's writes in the
`LINE_HOOK` are those of `CollaboratorCalls`. -/
def Obligations.PreUpdatesAndDispatches : Prop :=
  ∀ s : State, s.powered = true →
    ∃ t, exec .pre s = .next t ∧ t.trace = s.trace ++ preEvents s ∧
      t.irq =
        { hblank := false
          vblank :=
            if s.clock.vcounter.toNat = 0 then false
            else if s.clock.vcounter.toNat = screenHeight s ∧ s.io.vbie = true then true
            else s.irq.vblank
          apuInt := decide (s.clock.vcounter.toNat = screenHeight s) } ∧
      t.io =
        { s.io with
          vblankIRQ :=
            if s.clock.vcounter.toNat = 0 then false
            else if s.clock.vcounter.toNat = screenHeight s ∧ s.io.vbie = true then true
            else s.io.vblankIRQ } ∧
      t.latch =
        { s.latch with hic := if s.clock.vcounter.toNat = 0 then s.io.hic else s.latch.hic } ∧
      (s.clock.vcounter.toNat < screenHeight s → t.seq = { s.seq with ph := .dot } ∧ t.clock = s.clock) ∧
      (screenHeight s ≤ s.clock.vcounter.toNat →
        t.seq = ⟨.tick, 1710, .endLine⟩ ∧
          t.clock = { s.clock with hcounter := t.clock.hcounter } ∧
          (s.clock.hcounter.toNat + 1710 < 65536 →
            t.clock.hcounter.toNat = s.clock.hcounter.toNat + 1710) ∧
          EngineFrame s t) ∧
      t.time = s.time ∧ EngineFrame s { t with stores := s.stores, outbuf := s.outbuf }

/-- R141: at the start of every line the horizontal-blank line falls and the audio signal is cleared, whatever the
enables and whatever the levels were; the two lowerings are the first events after the line hook. -/
def Obligations.PulsedLinesFallOnEveryLine : Prop :=
  ∀ s : State, s.powered = true →
    ∃ t hook rest, exec .pre s = .next t ∧ t.irq.hblank = false ∧
      t.trace = s.trace ++ hook ++ [.cpuLower .hblank, .apuSetInt false] ++ rest ∧
      (hook = [] ∨ hook = [.lineHook s.clock.vcounter]) ∧
      (s.clock.vcounter.toNat ≠ screenHeight s → t.irq.apuInt = false)

/-- R145: the countdown. Underflow is tested before the decrement; it reloads `io.hic` and, if `io.hbie` is 1, raises the
horizontal-blank line; then the 430-clock tail is entered. That `hcounter` has grown by 430 at entry is the spec's choice
D8 (log entry 19). -/
def Obligations.HintCountsDown : Prop :=
  ∀ s : State, s.powered = true →
    ∃ t, exec .hint s = .next t ∧
      (s.latch.hic = 0 → t.latch = { s.latch with hic := s.io.hic }) ∧
      (s.latch.hic ≠ 0 → ∃ h, t.latch = { s.latch with hic := h } ∧ h.toNat = s.latch.hic.toNat - 1) ∧
      (s.latch.hic = 0 ∧ s.io.hbie = true →
        t.irq = { s.irq with hblank := true } ∧ t.trace = s.trace ++ [.cpuRaise .hblank]) ∧
      (¬ (s.latch.hic = 0 ∧ s.io.hbie = true) → t.irq = s.irq ∧ t.trace = s.trace) ∧
      t.seq = ⟨.tick, 430, .endLine⟩ ∧ t.clock = { s.clock with hcounter := t.clock.hcounter } ∧
      (s.clock.hcounter.toNat + 430 < 65536 → t.clock.hcounter.toNat = s.clock.hcounter.toNat + 430) ∧
      t.io = s.io ∧ t.time = s.time ∧ EngineFrame s t

/-- R146, for a frame run by `LINE` (decision D28, log entry 7), in which nothing writes `io.hic` or `io.hbie`. With
`io.hic` = `k`, the horizontal-blank interrupt is raised on active line `v` exactly when `v mod (k+1) = k` and it is
enabled, once; the line then stands high after line `v`; `latch.hic` has counted down from `k`; and the raises of the
frame's active lines are `floor(screenHeight() / (k+1))`. `HblankPeriodOfEveryRun` says it of every run. -/
def Obligations.HblankPeriod : Prop :=
  ∀ (s : State) (v : Nat), AtLineStart s → s.clock.vcounter = 0 → v < screenHeight s →
    ∃ t u e, LinesTo v s t ∧ LinesTo (v + 1) s u ∧ LinesTo (screenHeight s) s e ∧
      u.trace.count (.cpuRaise .hblank) =
        t.trace.count (.cpuRaise .hblank) +
          (if s.io.hbie = true ∧ v % (s.io.hic.toNat + 1) = s.io.hic.toNat then 1 else 0) ∧
      u.irq.hblank = (s.io.hbie && decide (v % (s.io.hic.toNat + 1) = s.io.hic.toNat)) ∧
      u.latch.hic.toNat = s.io.hic.toNat - (v + 1) % (s.io.hic.toNat + 1) ∧
      e.trace.count (.cpuRaise .hblank) =
        s.trace.count (.cpuRaise .hblank) +
          (if s.io.hbie = true then screenHeight s / (s.io.hic.toNat + 1) else 0)

/-- R142, R145, R146: every step of every agent that leaves `io.hic` alone keeps the countdown where the period law puts
it. (`State.CountdownFits`; the invariant `State.Inv` is a premise since the law speaks of lines that reach their `HINT`
by the driver.) -/
def Obligations.StepKeepsTheCountdown : Prop :=
  ∀ s t : State, s.Inv → s.CountdownFits → step s = .next t → t.io.hic = s.io.hic → t.CountdownFits

/-- R146: the period law, in every run whatever the agents do, from the `PRE` of line 0 on, for as long as `io.hic` keeps
the value `k` it has there. A step that is no `LINE` and no `RUN` raises the horizontal-blank line exactly if it is the
`HINT` of an active line `v` with `v mod (k+1) = k` and `io.hbie` is 1 then, and it raises it once. -/
def Obligations.HblankPeriodOfEveryRun : Prop :=
  ∀ (r : Nat → State) (n : Nat), RunOf r (n + 1) → (r 0).Inv → (r 0).seq.ph = .pre → (r 0).clock.vcounter = 0 →
    (∀ i, i ≤ n → (r i).io.hic = (r 0).io.hic) → plainTurn (nextTurn (r n)) →
      (r (n + 1)).trace.count (.cpuRaise .hblank) =
        (r n).trace.count (.cpuRaise .hblank) +
          (if nextTurn (r n) = .engine ∧ (r n).seq.ph = .hint ∧ (r n).io.hbie = true ∧
              (r n).clock.vcounter.toNat % ((r 0).io.hic.toNat + 1) = (r 0).io.hic.toNat
            then 1 else 0)

/-- R147 and the source's vertical-blank property, for a frame run by `LINE` (decision D28, log entry 7), in which nothing
writes `io.vbie`: the vertical-blank line is high after line `v` exactly from line `screenHeight()` on, if enabled, and
the audio signal is high after line `screenHeight()` alone, whatever the enables. That the audio signal is high for that
whole line is the spec's choice D37 (log entry 25). -/
def Obligations.VblankAndAudioLevels : Prop :=
  ∀ (s : State) (v : Nat), AtLineStart s → s.clock.vcounter = 0 → v < frameHeight s →
    ∃ t, LinesTo (v + 1) s t ∧ t.irq.vblank = (s.io.vbie && decide (screenHeight s ≤ v)) ∧
      t.irq.apuInt = decide (v = screenHeight s)

/-- R36: after every operation the vblank-pending flag is the level of the vertical-blank line, provided it was before
and the operation is not a `CFGWR` of the flag. -/
def Obligations.VblankFlagMirrorsTheLine : Prop :=
  ∀ (i : Instr) (s t : State), s.io.vblankIRQ = s.irq.vblank → (∀ val, i ≠ .cfgwr .vblankIRQ val) →
    exec i s = .next t → t.io.vblankIRQ = t.irq.vblank

/-! ### The geometry (40_geometry.md) -/

/-- R121, R123, R124: the three functions read the latches, never `io`; the decided values are those of R121 and R123
(supplied by the spec from general knowledge, log entry 1); the active width times the pixel width is 1280. That they read
the latches and never `io` is the spec's choice (R120, D9 to D11; log entry 21). -/
def Obligations.GeometryReadsTheLatches : Prop :=
  ∀ (s : State),
    screenHeight s = (if s.latch.overscan = true then 240 else 224) ∧
      pixelWidth s = (if s.latch.displayWidth = true then 4 else 5) ∧
      activeWidth s * pixelWidth s = 1280 ∧
      (∀ io : Io,
        screenHeight { s with io := io } = screenHeight s ∧ pixelWidth { s with io := io } = pixelWidth s ∧
          activeWidth { s with io := io } = activeWidth s ∧ frameHeight { s with io := io } = frameHeight s)

/-- R122: every frame height is above the screen height of its overscan bit and below 2^16, so every frame has a
blanking line. -/
def Obligations.FrameTallerThanScreen : Prop :=
  ∀ f o : Bool, screenHeightOf o < frameHeightOf f o ∧ frameHeightOf f o < 2 ^ 16

/-! ### Step and barrier (41_step_sync.md) -/

/-- R130: `STEP(clocks)`. The whole request is added to `hcounter` at entry; the return phase is that of the caller
(`DOT` returns to `DOT`, `PRE` and `HINT` to `END`); `STEP(0)` passes straight to it. At another phase the return phase
is one of the two and unknown (log entry 5). R130 gives `clocks` 0 to 1710; that 1711 to 2047 run the same way is log
entry 16, and that `hcounter` has grown by the request at entry is D8 (log entry 19). -/
def Obligations.StepEntry : Prop :=
  ∀ (clocks : Clocks) (s : State), s.powered = true →
    ∃ t r, exec (.step clocks) s = .next t ∧ (r = .dot ∨ r = .endLine) ∧
      (s.seq.ph = .dot → r = .dot) ∧ (s.seq.ph = .pre ∨ s.seq.ph = .hint → r = .endLine) ∧
      t.seq = ⟨if 0 < clocks.toNat then .tick else Ret.phase r, clocks, r⟩ ∧
      t.clock = { s.clock with hcounter := t.clock.hcounter } ∧
      (s.clock.hcounter.toNat + clocks.toNat < 65536 →
        t.clock.hcounter.toNat = s.clock.hcounter.toNat + clocks.toNat) ∧
      t.latch = s.latch ∧ t.io = s.io ∧ t.irq = s.irq ∧ t.trace = s.trace ∧ t.time = s.time ∧ EngineFrame s t

/-- R153, R154: `TAIL` is `STEP(430)` and `BLANK` is `STEP(1710)`, each returning to `END`; `hcounter` grows at entry
(D8, log entry 19). -/
def Obligations.TailAndBlankEntry : Prop :=
  ∀ s : State, s.powered = true →
    ∀ p ∈ [(Instr.tail, (430 : Clocks)), (Instr.blank, (1710 : Clocks))],
      ∃ t, exec p.1 s = .next t ∧ t.seq = ⟨.tick, p.2, .endLine⟩ ∧
        t.clock = { s.clock with hcounter := t.clock.hcounter } ∧
        (s.clock.hcounter.toNat + p.2.toNat < 65536 →
          t.clock.hcounter.toNat = s.clock.hcounter.toNat + p.2.toNat) ∧
        t.latch = s.latch ∧ t.io = s.io ∧ t.irq = s.irq ∧ t.trace = s.trace ∧ t.time = s.time ∧ EngineFrame s t

/-- R132: `TICK` calls the DMA collaborator once, advances the engine's time by one clock and goes to `SYNC`. The
collaborator's writes are those of `CollaboratorCalls`. R132 gives the precondition `seq.rem >= 1`; that `TICK` has the
same effect at 0 is the model's choice (log entry 6). -/
def Obligations.TickAdvancesOneClock : Prop :=
  ∀ s : State, s.powered = true →
    ∃ t, exec .tick s = .next t ∧ t.trace = s.trace ++ [.dmaRun] ∧ t.time.vdp = s.time.vdp + 1 ∧
      t.seq = { s.seq with ph := .sync } ∧ t.clock = s.clock ∧ t.latch = s.latch ∧ t.io = s.io ∧ t.irq = s.irq ∧
      EngineFrame s { t with stores := s.stores }

/-- R133, R134 (the predicate is decision D15): `SYNC` passes exactly when neither sibling is behind the engine, counts
one clock off and goes on; otherwise it is a hold and nothing changes. R48 says `SYNC` runs only with `seq.rem >= 1`;
at 0 it passes too, with an unknown `seq.rem` (log entry 6). That a hold, which R180 lists as an outcome of its own, is a
next state equal to the old one is log entry 14. A passed `SYNC` shows the siblings the block as it stands (R77). -/
def Obligations.SyncPassesOrHolds : Prop :=
  ∀ s : State, s.powered = true →
    (s.time.vdp * 2 * fCpu ≤ s.time.cpu * fSys ∧ s.time.vdp * 2 * fApu ≤ s.time.apu * fSys →
      ∃ t, exec .sync s = .next t ∧ t.trace = s.trace ++ [.synced] ∧
        (1 ≤ s.seq.rem.toNat → t.seq.rem.toNat = s.seq.rem.toNat - 1) ∧ t.seq.ret = s.seq.ret ∧
        (0 < t.seq.rem.toNat → t.seq.ph = .tick) ∧ (t.seq.rem.toNat = 0 → t.seq.ph = s.seq.ret.phase) ∧
        t.clock = s.clock ∧ t.latch = s.latch ∧ t.io = s.io ∧ t.irq = s.irq ∧ t.time = s.time ∧
        t.seen = viewOf s ∧ EngineFrame s { t with seen := s.seen }) ∧
    (¬ (s.time.vdp * 2 * fCpu ≤ s.time.cpu * fSys ∧ s.time.vdp * 2 * fApu ≤ s.time.apu * fSys) →
      exec .sync s = .next s)

/-- R5, R16, R66 (ruling U10, log entry 9): what a micro-operation does to the memories. The collaborators act inside the
engine's calls and nowhere else: the stores and the output buffer after any micro-operation are those before it with
exactly the writes of its call, whatever those are, and every byte and every pixel that none of them names reads as
before. A micro-operation without a call writes no memory. That `TICK` and `SYNC` go on at `seq.rem = 0` too is log entry
6. -/
def Obligations.CollaboratorCalls : Prop :=
  ∀ (i : Instr) (s : State), i.agent = .engine → s.powered = true →
    ∃ t, exec i s = .next t ∧ t.stores = writeBytes (storeWrites i s) s.stores ∧
      t.outbuf = writePixels (pixelWrites i s) s.outbuf ∧
      (∀ sp a, (∀ x ∈ storeWrites i s, (x.1, x.2.1) ≠ (sp, a)) → memRead t.stores sp a = memRead s.stores sp a) ∧
      (∀ n, (∀ x ∈ pixelWrites i s, x.1 % bufCap ≠ n) → Pixels.read t.outbuf n = Pixels.read s.outbuf n)

/-- `coopStep`, which run control is made of, is the engine's own micro-operation, at `SYNC` after the siblings have
caught up (R112). -/
def Obligations.RunControlRefinesTheEngine : Prop :=
  ∀ s : State, s.powered = true →
    (s.seq.ph ≠ .sync → exec s.seq.ph.instr s = .next (coopStep s)) ∧
    (s.seq.ph = .sync →
      ∃ c a k, s.time.cpu ≤ c ∧ s.time.apu ≤ a ∧
        exec .sync { s with time := ⟨s.time.vdp, c, a⟩, freeIdx := k } = .next (coopStep s) ∧
        (coopStep s).trace = s.trace ++ [.synced])

/-- R135, for a `STEP` run with the siblings cooperating and nothing else (decision D28, log entry 7). After the entry of
`STEP(n)`, `2 n` micro-operations make exactly `n` `DMA_RUN` and `n` `SYNCED` in alternation, `DMA_RUN` first, advance the
engine's time by `n`, return `seq.rem` to 0 and go to the return phase; `hcounter` has grown by `n`; `hdot`, `vcounter`,
`field`, the latches, the configuration and the interrupt lines are untouched. R130 gives `n` up to 1710; 1711 to 2047
are log entry 16. `CompletedStepInEveryRun` says it of every run. -/
def Obligations.CompletedStepLaw : Prop :=
  ∀ (n : Clocks) (s : State), s.powered = true → 1 ≤ n.toNat → s.clock.hcounter.toNat + n.toNat < 65536 →
    ∃ t u, exec (.step n) s = .next t ∧ coopStep^[2 * n.toNat] t = u ∧ u.trace = s.trace ++ clockPairs n.toNat ∧
      u.time.vdp = s.time.vdp + n.toNat ∧ u.clock.hcounter.toNat = s.clock.hcounter.toNat + n.toNat ∧
      u.seq = ⟨t.seq.ret.phase, 0, t.seq.ret⟩ ∧ u.clock.hdot = s.clock.hdot ∧ u.clock.vcounter = s.clock.vcounter ∧
      u.clock.field = s.clock.field ∧ u.latch = s.latch ∧ u.io = s.io ∧ u.irq = s.irq ∧ RunFrame s u

/-- R135: the law of a completed `STEP(n)` in every run. Between the entry of the `STEP` and the first state outside it,
any turns of any agents may come but `POWER`, run control and the model's own `micro`, holds and `CFGWR`s among them. The
new events of the clock are exactly `n` `DMA_RUN` and `n` `SYNCED`, alternating, `DMA_RUN` first; the engine's time has
grown by `n`, `seq.rem` is 0 and the engine stands at the return phase; `hcounter` has grown by `n`; `hdot`, `vcounter`,
`field`, the latches and the interrupt lines are untouched. R130 gives `n` up to 1710; 1711 to 2047 are log entry 16. -/
def Obligations.CompletedStepInEveryRun : Prop :=
  ∀ (n : Clocks) (s : State) (r : Nat → State) (m : Nat), 1 ≤ n.toNat →
    s.clock.hcounter.toNat + n.toNat < 65536 → exec (.step n) s = .next (r 0) → RunOf r m →
    (∀ i, i < m → plainTurn (nextTurn (r i)) ∧ (r i).stepping = true) → (r m).stepping = false →
      ∃ es, (r m).trace = s.trace ++ es ∧ clockEvents es = clockPairs n.toNat ∧
        (r m).time.vdp = s.time.vdp + n.toNat ∧ (r m).seq = ⟨(r 0).seq.ret.phase, 0, (r 0).seq.ret⟩ ∧
        (r m).clock.hcounter.toNat = s.clock.hcounter.toNat + n.toNat ∧ (r m).clock.hdot = s.clock.hdot ∧
        (r m).clock.vcounter = s.clock.vcounter ∧ (r m).clock.field = s.clock.field ∧ (r m).latch = s.latch ∧
        (r m).irq = s.irq

/-- R136 (decision D28): `RUN n` executes exactly `n` more `TICK`s and stops at the `SYNC` after the last, not passed. That
it does so from every phase of a powered block is log entry 17, and at `seq.rem = 0` too log entry 6. -/
def Obligations.RunStopsAtTheBarrier : Prop :=
  ∀ (n : BitVec 16) (s : State), s.powered = true → n ≠ 0 →
    ∃ t, exec (.run n) s = .next t ∧ t.seq.ph = .sync ∧ t.time.vdp = s.time.vdp + n.toNat ∧
      t.trace.count .dmaRun = s.trace.count .dmaRun + n.toNat ∧
      (∃ k, t = coopStep^[k] s ∧ RunMemory k s t) ∧ RunFrame s t

/-! ### The scanline driver (43_scanline.md) -/

/-- R152: one pass of the dot loop, or the fall-through to `HINT`. That `hcounter` has grown by the dot's clocks at entry
is D8 (log entry 19). The collaborator's writes in the `RENDER_RUN` are those of `CollaboratorCalls`. -/
def Obligations.DotPassOrFallThrough : Prop :=
  ∀ s : State, s.powered = true →
    ∃ t, exec .dot s = .next t ∧
      (s.clock.hcounter.toNat < 1280 →
        t.trace = s.trace ++ [.renderRun] ∧ t.seq.ph = .tick ∧ t.seq.rem.toNat = pixelWidth s ∧
          t.seq.ret = .dot ∧ t.clock.hcounter.toNat = s.clock.hcounter.toNat + pixelWidth s ∧
          (s.clock.hdot.toNat + 1 < 65536 → t.clock.hdot.toNat = s.clock.hdot.toNat + 1) ∧
          t.clock.vcounter = s.clock.vcounter ∧ t.clock.field = s.clock.field) ∧
      (1280 ≤ s.clock.hcounter.toNat →
        t.trace = s.trace ∧ t.seq = { s.seq with ph := .hint } ∧ t.clock = s.clock ∧ EngineFrame s t) ∧
      t.latch = s.latch ∧ t.io = s.io ∧ t.irq = s.irq ∧ t.time = s.time ∧
      EngineFrame s { t with stores := s.stores, outbuf := s.outbuf }

/-- R156 to R159: `END`. Both line counters to 0; the line advance, with the wrap decided by the old `field` and the old
latch; at a wrap the field toggles and the overscan latch is taken; the display-width latch is taken on every line. The
wrap test `>=` is the spec's choice D12, and the places where the latches are taken are in log entry 21. -/
def Obligations.EndAdvancesTheLine : Prop :=
  ∀ s : State, s.powered = true →
    ∃ t, exec .endLine s = .next t ∧ t.clock.hdot = 0 ∧ t.clock.hcounter = 0 ∧
      (frameHeight s ≤ s.clock.vcounter.toNat + 1 →
        t.clock.vcounter = 0 ∧ t.clock.field = !s.clock.field ∧ t.latch.overscan = s.io.overscan) ∧
      (s.clock.vcounter.toNat + 1 < frameHeight s →
        t.clock.vcounter.toNat = s.clock.vcounter.toNat + 1 ∧ t.clock.field = s.clock.field ∧
          t.latch.overscan = s.latch.overscan) ∧
      t.latch.displayWidth = s.io.displayWidth ∧ t.latch.hic = s.latch.hic ∧ t.seq = { s.seq with ph := .pre } ∧
      t.io = s.io ∧ t.irq = s.irq ∧ t.trace = s.trace ∧ t.time = s.time ∧ EngineFrame s t

/-- R155 (decision D28): `LINE` runs the engine until it next enters `PRE`, and not beyond. That it does so from every
phase of a powered block is log entry 17, and at `seq.rem = 0` too log entry 6. -/
def Obligations.LineRunsToTheNextPre : Prop :=
  ∀ s : State, s.powered = true →
    ∃ t k, exec .line s = .next t ∧ t = coopStep^[k] s ∧ 1 ≤ k ∧ t.seq.ph = .pre ∧
      (∀ j, 1 ≤ j → j < k → (coopStep^[j] s).seq.ph ≠ .pre) ∧ RunMemory k s t ∧ RunFrame s t

/-- R160, R162: the budget law and the event sequence of one line. From the start of a line, `LINE` takes exactly 1710
engine clocks and makes exactly the events of R162; the counters stand at 0 again and the line has advanced. `LINE_HOOK`
first in the line is the spec's choice D29 (log entry 22). -/
def Obligations.LineBudgetAndEvents : Prop :=
  ∀ s : State, AtLineStart s →
    ∃ t, exec .line s = .next t ∧ AtLineStart t ∧ t.time.vdp = s.time.vdp + 1710 ∧
      t.trace = s.trace ++ lineEvents s ∧ t.clock.vcounter.toNat = nextLine s ∧
      t.clock.field = (if frameHeight s ≤ s.clock.vcounter.toNat + 1 then !s.clock.field else s.clock.field) ∧
      t.latch.overscan =
        (if frameHeight s ≤ s.clock.vcounter.toNat + 1 then s.io.overscan else s.latch.overscan) ∧
      t.latch.displayWidth = s.io.displayWidth ∧ RunFrame s t

/-- R161: the frame law. A frame that starts in `s` is `frameHeight()` lines; `vcounter` takes each value once, in
order; `field` and the overscan latch are constant through it and `field` toggles at its end; it takes
`1710 * frameHeight()` engine clocks. That this is what `FRAME` runs is R111 (decision D28). -/
def Obligations.FrameLaw : Prop :=
  ∀ s : State, AtLineStart s → s.clock.vcounter = 0 →
    (∀ v, v < frameHeight s →
      ∃ t, LinesTo v s t ∧ t.clock.vcounter.toNat = v ∧ t.clock.field = s.clock.field ∧
        t.latch.overscan = s.latch.overscan ∧ t.time.vdp = s.time.vdp + 1710 * v) ∧
      ∃ t, LinesTo (frameHeight s) s t ∧ frame s = .next t ∧ AtLineStart t ∧ t.clock.vcounter = 0 ∧
        t.clock.field = !s.clock.field ∧ t.latch.overscan = s.io.overscan ∧
        t.time.vdp = s.time.vdp + 1710 * frameHeight s

/-- R163: what the rendering collaborator may rely on. In every state that meets the invariant, an engine's turn that
makes a `RENDER_RUN` is on an active line, with `hdot` in `[0, activeWidth())`, `hcounter` at that dot, and the
horizontal-blank line low; and `field`, `latch.overscan` and `latch.displayWidth` have the values they had at the `PRE` of
the line, in every run from that `PRE` without a `POWER`, whatever the other agents do. -/
def Obligations.RenderPremise : Prop :=
  (∀ s t : State, s.Inv → nextTurn s = .engine → step s = .next t → t.trace = s.trace ++ [.renderRun] →
    s.clock.vcounter.toNat < screenHeight s ∧ s.clock.hdot.toNat < activeWidth s ∧
      s.clock.hcounter.toNat = s.clock.hdot.toNat * pixelWidth s ∧ s.irq.hblank = false) ∧
  (∀ (r : Nat → State) (m : Nat), RunOf r m → (r 0).seq.ph = .pre →
    (∀ i, i < m → plainTurn (nextTurn (r i))) → (∀ i, 1 ≤ i → i ≤ m → (r i).seq.ph ≠ .pre) →
      (r m).clock.field = (r 0).clock.field ∧ (r m).latch.overscan = (r 0).latch.overscan ∧
        (r m).latch.displayWidth = (r 0).latch.displayWidth)

/-! ### Presentation (44_refresh.md) -/

/-- R165, R166: `REFRESH` makes one `SINK_REFRESH` with the pointer and the height of the four cases and changes no other
state. -/
def Obligations.RefreshSelectsTheWindow : Prop :=
  ∀ (pref : Bool) (s : State), CommandAdmitted s → s.output = 20480 →
    ∃ t ptr h, exec (.refresh pref) s = .next t ∧
      t.trace = s.trace ++ [.sinkRefresh ptr (1280 * pixelBytes) 1280 h] ∧
      { t with log := s.log } = s ∧
      (pref = false → h = Config.outHShort) ∧ (pref = true → h = outHTall) ∧
      (pref = false → s.latch.overscan = true → ptr = 40960) ∧
      (pref = true → s.latch.overscan = false → ptr = 0) ∧
      (pref = s.latch.overscan → ptr = 20480)

/-- R167, R169: the window of every `REFRESH` lies inside the output buffer, whatever the open heights and capacity are
within the constraints of R8; the sink may read exactly the pixels of the window of a `REFRESH` that is admitted, each of
them in the buffer, and the `REFRESH` leaves every pixel as it was. -/
def Obligations.RefreshWindowInsideTheBuffer : Prop :=
  ∀ (pref : Bool) (s : State), s.output = 20480 →
    refreshPtr pref s + refreshHeight pref * Config.stride ≤ bufCap ∧
      ∀ row col,
        ((sinkPixel pref s row col).isSome = true ↔
          (∃ t, exec (.refresh pref) s = .next t) ∧ row < refreshHeight pref ∧ col < 1280) ∧
        (row < refreshHeight pref → col < 1280 → refreshPtr pref s + row * 1280 + col < bufCap) ∧
        (∀ v, sinkPixel pref s row col = some v →
          v = Pixels.read s.outbuf (refreshPtr pref s + row * 1280 + col)) ∧
        (∀ t, exec (.refresh pref) s = .next t → t.outbuf = s.outbuf)

/-- R165: `REFRESH` reads the latch, never `io.overscan`. -/
def Obligations.RefreshIgnoresTheLiveConfiguration : Prop :=
  ∀ (pref : Bool) (s t : State) (io : Io), exec (.refresh pref) s = .next t →
    exec (.refresh pref) { s with io := io } = .next { t with io := io }

/-! ### The other agents (00_scope.md R16, R17; 60_exceptions.md) -/

/-- R16, R17, R66: a turn of a sibling's domain acts while the engine stands at `SYNC` or `PRE` and changes only what is
its own; elsewhere it is refused. That the siblings' power sets both their times to 0 is read from R45 and D13 (log entry
4, DEDUCED), since R204 leaves the siblings' power operations unspecified and R16 lists none. The list of such turns is
the model's own (log entries 8 and 9), and so is that they are refused before the first `POWER` (log entry 29), of which
this says nothing. -/
def Obligations.EnvironmentTurns : Prop :=
  ∀ (s : State) (rest : List Turn), s.powered = true →
    (quiescent s = true →
      (∀ n, step { s with schedule := .cpuTime n :: rest } =
        .next { s with schedule := rest, time := { s.time with cpu := s.time.cpu + n } }) ∧
      (∀ n, step { s with schedule := .apuTime n :: rest } =
        .next { s with schedule := rest, time := { s.time with apu := s.time.apu + n } }) ∧
      (step { s with schedule := .siblingsPower :: rest } =
        .next { s with schedule := rest, time := ⟨s.time.vdp, 0, 0⟩ }) ∧
      (∀ sp a v, ∃ st, step { s with schedule := .decodeStore sp a v :: rest } =
          .next { s with schedule := rest, stores := st } ∧
        ∀ sp' b, memRead st sp' b =
          if a.toNat < Space.limit sp ∧ (sp', b) = (sp, a) then v else memRead s.stores sp' b) ∧
      (∀ b, step { s with schedule := .decodeVramMode b :: rest } =
        .next { s with schedule := rest, vramMode := b })) ∧
    (quiescent s = false → ∀ n m sp a v b,
      ∀ turn ∈ [Turn.cpuTime n, .apuTime m, .siblingsPower, .cpuLook, .apuLook, .decodeStore sp a v, .decodeVramMode b],
        step { s with schedule := turn :: rest } = .refused .notYielding)

/-- R77 (a) and (c), R189, R131: what a sibling observes of the block is the block as it stood when a `SYNC` was last
passed, but that `hcounter` read in the middle of a `STEP` is the engine's own, which holds the value at the end of that
`STEP` (R131, the spec's choice D8 and U11: log entry 19). A look of either sibling copies what it can observe, never the
lines themselves; a turn of any agent other than run control changes what has been made visible only by passing a `SYNC`,
and then to the block as it stands, all of it together, but that `MAINCPU` sees the vblank-pending flag it writes itself.
That looking is a turn with a place of its own in the state, and that R131 goes before R77 (c) for `hcounter`, is the
model's choice (log entry 30). -/
def Obligations.SiblingsSeeAtTheBarrier : Prop :=
  (∀ (s : State) (rest : List Turn), s.powered = true → quiescent s = true →
    (∃ v : CpuView, step { s with schedule := .cpuLook :: rest } =
        .next { s with schedule := rest, saw := { s.saw with cpu := v } } ∧
      v.hblank = s.seen.cpu.hblank ∧ v.vblank = s.seen.cpu.vblank ∧ v.vblankIRQ = s.seen.cpu.vblankIRQ ∧
      v.clock.hdot = s.seen.cpu.clock.hdot ∧ v.clock.vcounter = s.seen.cpu.clock.vcounter ∧
      v.clock.field = s.seen.cpu.clock.field ∧ (s.seq.ph = .sync → v.clock.hcounter = s.clock.hcounter) ∧
      (s.seq.ph = .pre → v.clock.hcounter = s.seen.cpu.clock.hcounter)) ∧
      step { s with schedule := .apuLook :: rest } =
        .next { s with schedule := rest, saw := { s.saw with apu := s.seen.apu } }) ∧
  (∀ s t : State, nextTurn s = .engine → step s = .next t →
    if s.seq.ph = .sync ∧ barrierOpen s = true then
      t.seen.cpu = ⟨s.irq.hblank, s.irq.vblank, s.io.vblankIRQ, s.clock⟩ ∧ t.seen.apu = s.irq.apuInt
    else t.seen = s.seen) ∧
  (∀ s t : State, plainTurn (nextTurn s) → nextTurn s ≠ .engine → step s = .next t →
    t.seen = { s.seen with cpu := { s.seen.cpu with vblankIRQ := t.seen.cpu.vblankIRQ } } ∧
      (t.seen ≠ s.seen → t.seen.cpu.vblankIRQ = t.io.vblankIRQ))

/-- R182: a hold that no other agent lifts lasts for ever: the engine generates no error and changes nothing. That such a
state is a hold with nothing scheduled, and that a held step is a next state equal to the old one where R180 lists hold
and stuck as outcomes of their own, is log entry 14. -/
def Obligations.StuckForEver : Prop :=
  ∀ s : State, s.Stuck → ∀ k, Host.Core.run core k s = .next s

/-- R181: what lifts a hold is the siblings' advance: from every holding state there are advances of the two siblings
after which the very next engine step passes the barrier. -/
def Obligations.SiblingsLiftTheHold : Prop :=
  ∀ s : State, s.holding = true →
    ∃ n m t, Host.Core.run core 3 { s with schedule := [.cpuTime n, .apuTime m] } = .next t ∧
      t.trace = s.trace ++ [.synced] ∧ t.clock = s.clock ∧ t.time.vdp = s.time.vdp

/-! ### Whole-machine rules -/

/-- The state after reset meets the invariant. -/
def Obligations.ResetMeetsTheInvariant : Prop := State.reset.Inv

/-- Every step of every agent keeps the invariant: the line counter stays in the frame (R22), the sequencer's registers
fit its phase (R41, R42, R48), the counters of the line stand where R20, R21, R24 say, the lines are high only where R147
and R191 allow, the engine's time and the position in the line agree modulo 1710 (R160, R234), the output cursor is
constant (R47), the memories keep their canonical form, and the siblings can never observe both lines high. What the
invariant says of `hcounter` at `TICK` and `SYNC` rests on the spec's choice D8 (log entry 19), and that `apu_int` is
high for a whole line on D37 (log entry 25). -/
def Obligations.StepKeepsTheInvariant : Prop :=
  ∀ s t : State, s.Inv → step s = .next t → t.Inv

/-- R191: the two interrupt lines to the main CPU are never high together, in any state that any number of steps from a
state meeting the invariant reaches. That the main CPU never observes them so either is no part of R191: it rests on R77
and R189 (a sibling observes the lines as they stood when `SYNC` was last passed) and on the field `seen` that the model
holds this in, across a `POWER` too (log entry 30). -/
def Obligations.FlopsNeverBothHigh : Prop :=
  ∀ (s t : State) (k : Nat), s.Inv → Host.Core.run core k s = .next t →
    ¬ (t.irq.hblank = true ∧ t.irq.vblank = true) ∧ ¬ (t.seen.cpu.hblank = true ∧ t.seen.cpu.vblank = true)

/-- R235, for the time of a line's start: from a state meeting the invariant, whenever the engine stands at `PRE` its
time is a multiple of 1710 clocks. -/
def Obligations.LinesStartOnTheBudget : Prop :=
  ∀ (s t : State) (k : Nat), s.Inv → Host.Core.run core k s = .next t → t.seq.ph = .pre →
    t.time.vdp % 1710 = 0

/-- R198 (decision D31): who may write what. The engine's operations write, of the configuration, only the vblank-pending
flag, and of the micro-operations only `PRE` writes it; they write no store and no pixel but through the collaborators
they call (log entry 9). `CFGWR` writes the configuration alone, with it what `MAINCPU` can see of its own flag (log entry
30). `DBGRD`, `DBGWR` and `REFRESH` write no register of the engine and no pixel, and only `DBGWR` writes a store. -/
def Obligations.WriteRights : Prop :=
  ∀ (i : Instr) (s t : State), exec i s = .next t →
    (i.agent = .engine ∨ i.agent = .runControl → { t.io with vblankIRQ := s.io.vblankIRQ } = s.io) ∧
    (i.agent = .engine →
      (i ≠ .pre → t.io = s.io) ∧ (storeWrites i s = [] → t.stores = s.stores) ∧
        (pixelWrites i s = [] → t.outbuf = s.outbuf)) ∧
    (i.agent = .mainCpu → { t with io := s.io, seen := s.seen } = s) ∧
    (i.agent = .host → (∀ reset, i ≠ .power reset) →
      t.clock = s.clock ∧ t.latch = s.latch ∧ t.io = s.io ∧ t.irq = s.irq ∧ t.seq = s.seq ∧ t.time = s.time ∧
        t.output = s.output ∧ t.vramMode = s.vramMode ∧ t.outbuf = s.outbuf ∧
        ((∀ sp a v, i ≠ .dbgwr sp a v) → t.stores = s.stores))
end

