-- ==== Sys2Proof/Laws/Decode.lean ====
section
/-! SUPPORT. The fields of a word put together from fields, and a word put together from its own fields (R97, R100). The
round-trip statements rest on these and unfold neither layout. -/

namespace Sys2Proof

@[simp] theorem cmdOp_cmdWord (op sub : BitVec 4) (a16 : BitVec 16) (a8 : BitVec 8) :
    cmdOp (cmdWord op sub a16 a8) = op := by
  simp only [cmdOp, cmdWord]
  ext i hi
  simp
  grind

@[simp] theorem cmdSub_cmdWord (op sub : BitVec 4) (a16 : BitVec 16) (a8 : BitVec 8) :
    cmdSub (cmdWord op sub a16 a8) = sub := by
  simp only [cmdSub, cmdWord]
  ext i hi
  simp
  grind

@[simp] theorem cmdA16_cmdWord (op sub : BitVec 4) (a16 : BitVec 16) (a8 : BitVec 8) :
    cmdA16 (cmdWord op sub a16 a8) = a16 := by
  simp only [cmdA16, cmdWord]
  ext i hi
  simp
  grind

@[simp] theorem cmdA8_cmdWord (op sub : BitVec 4) (a16 : BitVec 16) (a8 : BitVec 8) :
    cmdA8 (cmdWord op sub a16 a8) = a8 := by
  simp only [cmdA8, cmdWord]
  ext i hi
  simp
  grind

/-- A command word is its four fields. -/
theorem cmdWord_of_fields (w : CmdWord) : cmdWord (cmdOp w) (cmdSub w) (cmdA16 w) (cmdA8 w) = w := by
  simp only [cmdOp, cmdSub, cmdA16, cmdA8, cmdWord]
  ext i hi
  simp
  grind

@[simp] theorem uopCode_uopWord (code : BitVec 4) (clocks : Clocks) : uopCode (uopWord code clocks) = code := by
  simp only [uopCode, uopWord]
  ext i hi
  simp
  grind

@[simp] theorem uopBit11_uopWord (code : BitVec 4) (clocks : Clocks) : uopBit11 (uopWord code clocks) = 0 := by
  simp only [uopBit11, uopWord]
  ext i hi
  simp
  grind

@[simp] theorem uopClocks_uopWord (code : BitVec 4) (clocks : Clocks) :
    uopClocks (uopWord code clocks) = clocks := by
  simp only [uopClocks, uopWord]
  ext i hi
  simp
  grind

/-- A micro-operation word whose bit 11 is 0 is its two other fields. -/
theorem uopWord_of_fields (w : UopWord) (h : uopBit11 w = 0) : uopWord (uopCode w) (uopClocks w) = w := by
  have h' : w.getLsbD 11 = false := by
    have := congrArg (fun b => b.getLsbD 0) h
    simpa [uopBit11] using this
  simp only [uopCode, uopClocks, uopWord]
  ext i hi
  simp
  grind

/-- A command word never spells a micro-operation of the engine (R98). -/
theorem decodeCmd_agent (w : CmdWord) (i : Instr) (h : decodeCmd w = .ok i) : i.agent ≠ .engine := by
  simp only [decodeCmd, decodeCmdFields, decodeOneBit, decodeDbgrd, decodeDbgwr, decodeCfgwr, decodeLine, decodeRun] at h
  repeat' split at h
  all_goals first
    | (injection h with h; subst h; exact nofun)
    | cases h

end Sys2Proof
end

