-- ==== Sys2Proof/Laws/State.lean ====
section
/-! SUPPORT. One lemma per field per update: what each named operation leaves in each field of the state, so that no later
proof unfolds a record update. The proofs are written `(rfl)`, not `rfl`, so that `simp` rewrites with them inside the
condition of an `if` too. -/

namespace Sys2Proof.Machine

@[simp] theorem Irq_set_hblank (q : Irq) (b : Bool) : Irq.set q .hblank b = ⟨b, q.vblank, q.apuInt⟩ := rfl

@[simp] theorem Irq_set_vblank (q : Irq) (b : Bool) : Irq.set q .vblank b = ⟨q.hblank, b, q.apuInt⟩ := rfl

@[simp] theorem trace_emit (e : Event) (s : State) : (emit e s).trace = s.trace ++ [e] := by
  simp [State.trace, emit]

@[simp] theorem trace_emitAll (es : List Event) (s : State) : (emitAll es s).trace = s.trace ++ es := by
  simp [State.trace, emitAll]

/-- The trace depends on the log alone. -/
theorem trace_of_log (s t : State) (h : s.log = t.log) : s.trace = t.trace := by
  simp [State.trace, h]

/-! ### `emit` -/

@[simp] theorem emit_clock (e : Event) (s : State) : (emit e s).clock = s.clock := (rfl)

@[simp] theorem emit_latch (e : Event) (s : State) : (emit e s).latch = s.latch := (rfl)

@[simp] theorem emit_io (e : Event) (s : State) : (emit e s).io = s.io := (rfl)

@[simp] theorem emit_irq (e : Event) (s : State) : (emit e s).irq = s.irq := (rfl)

@[simp] theorem emit_seq (e : Event) (s : State) : (emit e s).seq = s.seq := (rfl)

@[simp] theorem emit_time (e : Event) (s : State) : (emit e s).time = s.time := (rfl)

@[simp] theorem emit_vramMode (e : Event) (s : State) : (emit e s).vramMode = s.vramMode := (rfl)

@[simp] theorem emit_output (e : Event) (s : State) : (emit e s).output = s.output := (rfl)

@[simp] theorem emit_stores (e : Event) (s : State) : (emit e s).stores = s.stores := (rfl)

@[simp] theorem emit_outbuf (e : Event) (s : State) : (emit e s).outbuf = s.outbuf := (rfl)

@[simp] theorem emit_log (e : Event) (s : State) : (emit e s).log = e :: s.log := (rfl)

@[simp] theorem emit_powered (e : Event) (s : State) : (emit e s).powered = s.powered := (rfl)

@[simp] theorem emit_seen (e : Event) (s : State) : (emit e s).seen = s.seen := (rfl)

@[simp] theorem emit_saw (e : Event) (s : State) : (emit e s).saw = s.saw := (rfl)

@[simp] theorem emit_dbgRdata (e : Event) (s : State) : (emit e s).dbgRdata = s.dbgRdata := (rfl)

@[simp] theorem emit_schedule (e : Event) (s : State) : (emit e s).schedule = s.schedule := (rfl)

@[simp] theorem emit_freeIdx (e : Event) (s : State) : (emit e s).freeIdx = s.freeIdx := (rfl)


/-! ### `emitAll` -/

@[simp] theorem emitAll_clock (es : List Event) (s : State) : (emitAll es s).clock = s.clock := (rfl)

@[simp] theorem emitAll_latch (es : List Event) (s : State) : (emitAll es s).latch = s.latch := (rfl)

@[simp] theorem emitAll_io (es : List Event) (s : State) : (emitAll es s).io = s.io := (rfl)

@[simp] theorem emitAll_irq (es : List Event) (s : State) : (emitAll es s).irq = s.irq := (rfl)

@[simp] theorem emitAll_seq (es : List Event) (s : State) : (emitAll es s).seq = s.seq := (rfl)

@[simp] theorem emitAll_time (es : List Event) (s : State) : (emitAll es s).time = s.time := (rfl)

@[simp] theorem emitAll_vramMode (es : List Event) (s : State) : (emitAll es s).vramMode = s.vramMode := (rfl)

@[simp] theorem emitAll_output (es : List Event) (s : State) : (emitAll es s).output = s.output := (rfl)

@[simp] theorem emitAll_stores (es : List Event) (s : State) : (emitAll es s).stores = s.stores := (rfl)

@[simp] theorem emitAll_outbuf (es : List Event) (s : State) : (emitAll es s).outbuf = s.outbuf := (rfl)

@[simp] theorem emitAll_log (es : List Event) (s : State) : (emitAll es s).log = es.reverse ++ s.log := (rfl)

@[simp] theorem emitAll_powered (es : List Event) (s : State) : (emitAll es s).powered = s.powered := (rfl)

@[simp] theorem emitAll_seen (es : List Event) (s : State) : (emitAll es s).seen = s.seen := (rfl)

@[simp] theorem emitAll_saw (es : List Event) (s : State) : (emitAll es s).saw = s.saw := (rfl)

@[simp] theorem emitAll_dbgRdata (es : List Event) (s : State) : (emitAll es s).dbgRdata = s.dbgRdata := (rfl)

@[simp] theorem emitAll_schedule (es : List Event) (s : State) : (emitAll es s).schedule = s.schedule := (rfl)

@[simp] theorem emitAll_freeIdx (es : List Event) (s : State) : (emitAll es s).freeIdx = s.freeIdx := (rfl)


/-! ### `setPhase` -/

@[simp] theorem setPhase_clock (p : Phase) (s : State) : (setPhase p s).clock = s.clock := (rfl)

@[simp] theorem setPhase_latch (p : Phase) (s : State) : (setPhase p s).latch = s.latch := (rfl)

@[simp] theorem setPhase_io (p : Phase) (s : State) : (setPhase p s).io = s.io := (rfl)

@[simp] theorem setPhase_irq (p : Phase) (s : State) : (setPhase p s).irq = s.irq := (rfl)

@[simp] theorem setPhase_seq (p : Phase) (s : State) : (setPhase p s).seq = ⟨p, s.seq.rem, s.seq.ret⟩ := (rfl)

@[simp] theorem setPhase_time (p : Phase) (s : State) : (setPhase p s).time = s.time := (rfl)

@[simp] theorem setPhase_vramMode (p : Phase) (s : State) : (setPhase p s).vramMode = s.vramMode := (rfl)

@[simp] theorem setPhase_output (p : Phase) (s : State) : (setPhase p s).output = s.output := (rfl)

@[simp] theorem setPhase_stores (p : Phase) (s : State) : (setPhase p s).stores = s.stores := (rfl)

@[simp] theorem setPhase_outbuf (p : Phase) (s : State) : (setPhase p s).outbuf = s.outbuf := (rfl)

@[simp] theorem setPhase_log (p : Phase) (s : State) : (setPhase p s).log = s.log := (rfl)

@[simp] theorem setPhase_powered (p : Phase) (s : State) : (setPhase p s).powered = s.powered := (rfl)

@[simp] theorem setPhase_seen (p : Phase) (s : State) : (setPhase p s).seen = s.seen := (rfl)

@[simp] theorem setPhase_saw (p : Phase) (s : State) : (setPhase p s).saw = s.saw := (rfl)

@[simp] theorem setPhase_dbgRdata (p : Phase) (s : State) : (setPhase p s).dbgRdata = s.dbgRdata := (rfl)

@[simp] theorem setPhase_schedule (p : Phase) (s : State) : (setPhase p s).schedule = s.schedule := (rfl)

@[simp] theorem setPhase_freeIdx (p : Phase) (s : State) : (setPhase p s).freeIdx = s.freeIdx := (rfl)


/-! ### `enterStep` -/

@[simp] theorem enterStep_clock (c : Clocks) (r : Ret) (s : State) : (enterStep c r s).clock = ⟨addCounter s.clock.hcounter c.toNat, s.clock.hdot, s.clock.vcounter, s.clock.field⟩ := (rfl)

@[simp] theorem enterStep_latch (c : Clocks) (r : Ret) (s : State) : (enterStep c r s).latch = s.latch := (rfl)

@[simp] theorem enterStep_io (c : Clocks) (r : Ret) (s : State) : (enterStep c r s).io = s.io := (rfl)

@[simp] theorem enterStep_irq (c : Clocks) (r : Ret) (s : State) : (enterStep c r s).irq = s.irq := (rfl)

@[simp] theorem enterStep_seq (c : Clocks) (r : Ret) (s : State) : (enterStep c r s).seq = ⟨if 0 < c.toNat then .tick else r.phase, c, r⟩ := (rfl)

@[simp] theorem enterStep_time (c : Clocks) (r : Ret) (s : State) : (enterStep c r s).time = s.time := (rfl)

@[simp] theorem enterStep_vramMode (c : Clocks) (r : Ret) (s : State) : (enterStep c r s).vramMode = s.vramMode := (rfl)

@[simp] theorem enterStep_output (c : Clocks) (r : Ret) (s : State) : (enterStep c r s).output = s.output := (rfl)

@[simp] theorem enterStep_stores (c : Clocks) (r : Ret) (s : State) : (enterStep c r s).stores = s.stores := (rfl)

@[simp] theorem enterStep_outbuf (c : Clocks) (r : Ret) (s : State) : (enterStep c r s).outbuf = s.outbuf := (rfl)

@[simp] theorem enterStep_log (c : Clocks) (r : Ret) (s : State) : (enterStep c r s).log = s.log := (rfl)

@[simp] theorem enterStep_powered (c : Clocks) (r : Ret) (s : State) : (enterStep c r s).powered = s.powered := (rfl)

@[simp] theorem enterStep_seen (c : Clocks) (r : Ret) (s : State) : (enterStep c r s).seen = s.seen := (rfl)

@[simp] theorem enterStep_saw (c : Clocks) (r : Ret) (s : State) : (enterStep c r s).saw = s.saw := (rfl)

@[simp] theorem enterStep_dbgRdata (c : Clocks) (r : Ret) (s : State) : (enterStep c r s).dbgRdata = s.dbgRdata := (rfl)

@[simp] theorem enterStep_schedule (c : Clocks) (r : Ret) (s : State) : (enterStep c r s).schedule = s.schedule := (rfl)

@[simp] theorem enterStep_freeIdx (c : Clocks) (r : Ret) (s : State) : (enterStep c r s).freeIdx = s.freeIdx := (rfl)


/-! ### `publish` -/

@[simp] theorem publish_clock (s : State) : (publish s).clock = s.clock := (rfl)

@[simp] theorem publish_latch (s : State) : (publish s).latch = s.latch := (rfl)

@[simp] theorem publish_io (s : State) : (publish s).io = s.io := (rfl)

@[simp] theorem publish_irq (s : State) : (publish s).irq = s.irq := (rfl)

@[simp] theorem publish_seq (s : State) : (publish s).seq = s.seq := (rfl)

@[simp] theorem publish_time (s : State) : (publish s).time = s.time := (rfl)

@[simp] theorem publish_vramMode (s : State) : (publish s).vramMode = s.vramMode := (rfl)

@[simp] theorem publish_output (s : State) : (publish s).output = s.output := (rfl)

@[simp] theorem publish_stores (s : State) : (publish s).stores = s.stores := (rfl)

@[simp] theorem publish_outbuf (s : State) : (publish s).outbuf = s.outbuf := (rfl)

@[simp] theorem publish_log (s : State) : (publish s).log = s.log := (rfl)

@[simp] theorem publish_powered (s : State) : (publish s).powered = s.powered := (rfl)

@[simp] theorem publish_seen (s : State) : (publish s).seen = viewOf s := (rfl)

@[simp] theorem publish_saw (s : State) : (publish s).saw = s.saw := (rfl)

@[simp] theorem publish_dbgRdata (s : State) : (publish s).dbgRdata = s.dbgRdata := (rfl)

@[simp] theorem publish_schedule (s : State) : (publish s).schedule = s.schedule := (rfl)

@[simp] theorem publish_freeIdx (s : State) : (publish s).freeIdx = s.freeIdx := (rfl)


/-! ### `renderCall` -/

@[simp] theorem renderCall_clock (s : State) : (renderCall s).clock = s.clock := (rfl)

@[simp] theorem renderCall_latch (s : State) : (renderCall s).latch = s.latch := (rfl)

@[simp] theorem renderCall_io (s : State) : (renderCall s).io = s.io := (rfl)

@[simp] theorem renderCall_irq (s : State) : (renderCall s).irq = s.irq := (rfl)

@[simp] theorem renderCall_seq (s : State) : (renderCall s).seq = s.seq := (rfl)

@[simp] theorem renderCall_time (s : State) : (renderCall s).time = s.time := (rfl)

@[simp] theorem renderCall_vramMode (s : State) : (renderCall s).vramMode = s.vramMode := (rfl)

@[simp] theorem renderCall_output (s : State) : (renderCall s).output = s.output := (rfl)

@[simp] theorem renderCall_stores (s : State) : (renderCall s).stores = writeBytes (Config.renderStores s) s.stores := (rfl)

@[simp] theorem renderCall_outbuf (s : State) : (renderCall s).outbuf = writePixels (Config.renderPixels s) s.outbuf := (rfl)

@[simp] theorem renderCall_log (s : State) : (renderCall s).log = s.log := (rfl)

@[simp] theorem renderCall_powered (s : State) : (renderCall s).powered = s.powered := (rfl)

@[simp] theorem renderCall_seen (s : State) : (renderCall s).seen = s.seen := (rfl)

@[simp] theorem renderCall_saw (s : State) : (renderCall s).saw = s.saw := (rfl)

@[simp] theorem renderCall_dbgRdata (s : State) : (renderCall s).dbgRdata = s.dbgRdata := (rfl)

@[simp] theorem renderCall_schedule (s : State) : (renderCall s).schedule = s.schedule := (rfl)

@[simp] theorem renderCall_freeIdx (s : State) : (renderCall s).freeIdx = s.freeIdx := (rfl)


/-! ### `dmaCall` -/

@[simp] theorem dmaCall_clock (s : State) : (dmaCall s).clock = s.clock := (rfl)

@[simp] theorem dmaCall_latch (s : State) : (dmaCall s).latch = s.latch := (rfl)

@[simp] theorem dmaCall_io (s : State) : (dmaCall s).io = s.io := (rfl)

@[simp] theorem dmaCall_irq (s : State) : (dmaCall s).irq = s.irq := (rfl)

@[simp] theorem dmaCall_seq (s : State) : (dmaCall s).seq = s.seq := (rfl)

@[simp] theorem dmaCall_time (s : State) : (dmaCall s).time = s.time := (rfl)

@[simp] theorem dmaCall_vramMode (s : State) : (dmaCall s).vramMode = s.vramMode := (rfl)

@[simp] theorem dmaCall_output (s : State) : (dmaCall s).output = s.output := (rfl)

@[simp] theorem dmaCall_stores (s : State) : (dmaCall s).stores = writeBytes (Config.dmaStores s) s.stores := (rfl)

@[simp] theorem dmaCall_outbuf (s : State) : (dmaCall s).outbuf = s.outbuf := (rfl)

@[simp] theorem dmaCall_log (s : State) : (dmaCall s).log = s.log := (rfl)

@[simp] theorem dmaCall_powered (s : State) : (dmaCall s).powered = s.powered := (rfl)

@[simp] theorem dmaCall_seen (s : State) : (dmaCall s).seen = s.seen := (rfl)

@[simp] theorem dmaCall_saw (s : State) : (dmaCall s).saw = s.saw := (rfl)

@[simp] theorem dmaCall_dbgRdata (s : State) : (dmaCall s).dbgRdata = s.dbgRdata := (rfl)

@[simp] theorem dmaCall_schedule (s : State) : (dmaCall s).schedule = s.schedule := (rfl)

@[simp] theorem dmaCall_freeIdx (s : State) : (dmaCall s).freeIdx = s.freeIdx := (rfl)


/-! ### `passBarrier` -/

@[simp] theorem passBarrier_clock (s : State) : (passBarrier s).clock = s.clock := (rfl)

@[simp] theorem passBarrier_latch (s : State) : (passBarrier s).latch = s.latch := (rfl)

@[simp] theorem passBarrier_io (s : State) : (passBarrier s).io = s.io := (rfl)

@[simp] theorem passBarrier_irq (s : State) : (passBarrier s).irq = s.irq := (rfl)

@[simp] theorem passBarrier_seq (s : State) : (passBarrier s).seq = ⟨if 0 < (decRem s.seq.rem).toNat then .tick else s.seq.ret.phase, decRem s.seq.rem, s.seq.ret⟩ := (rfl)

@[simp] theorem passBarrier_time (s : State) : (passBarrier s).time = s.time := (rfl)

@[simp] theorem passBarrier_vramMode (s : State) : (passBarrier s).vramMode = s.vramMode := (rfl)

@[simp] theorem passBarrier_output (s : State) : (passBarrier s).output = s.output := (rfl)

@[simp] theorem passBarrier_stores (s : State) : (passBarrier s).stores = s.stores := (rfl)

@[simp] theorem passBarrier_outbuf (s : State) : (passBarrier s).outbuf = s.outbuf := (rfl)

@[simp] theorem passBarrier_log (s : State) : (passBarrier s).log = Event.synced :: s.log := (rfl)

@[simp] theorem passBarrier_powered (s : State) : (passBarrier s).powered = s.powered := (rfl)

@[simp] theorem passBarrier_seen (s : State) : (passBarrier s).seen = viewOf s := (rfl)

@[simp] theorem passBarrier_saw (s : State) : (passBarrier s).saw = s.saw := (rfl)

@[simp] theorem passBarrier_dbgRdata (s : State) : (passBarrier s).dbgRdata = s.dbgRdata := (rfl)

@[simp] theorem passBarrier_schedule (s : State) : (passBarrier s).schedule = s.schedule := (rfl)

@[simp] theorem passBarrier_freeIdx (s : State) : (passBarrier s).freeIdx = s.freeIdx := (rfl)


/-! ### `cooperate` -/

@[simp] theorem cooperate_clock (s : State) : (cooperate s).clock = s.clock := (rfl)

@[simp] theorem cooperate_latch (s : State) : (cooperate s).latch = s.latch := (rfl)

@[simp] theorem cooperate_io (s : State) : (cooperate s).io = s.io := (rfl)

@[simp] theorem cooperate_irq (s : State) : (cooperate s).irq = s.irq := (rfl)

@[simp] theorem cooperate_seq (s : State) : (cooperate s).seq = s.seq := (rfl)

@[simp] theorem cooperate_time (s : State) : (cooperate s).time = ⟨s.time.vdp, max s.time.cpu (leastCaughtUp fCpu s) + Config.siblingLead s.freeIdx,
        max s.time.apu (leastCaughtUp fApu s) + Config.siblingLead (s.freeIdx + 1)⟩ := (rfl)

@[simp] theorem cooperate_vramMode (s : State) : (cooperate s).vramMode = s.vramMode := (rfl)

@[simp] theorem cooperate_output (s : State) : (cooperate s).output = s.output := (rfl)

@[simp] theorem cooperate_stores (s : State) : (cooperate s).stores = s.stores := (rfl)

@[simp] theorem cooperate_outbuf (s : State) : (cooperate s).outbuf = s.outbuf := (rfl)

@[simp] theorem cooperate_log (s : State) : (cooperate s).log = s.log := (rfl)

@[simp] theorem cooperate_powered (s : State) : (cooperate s).powered = s.powered := (rfl)

@[simp] theorem cooperate_seen (s : State) : (cooperate s).seen = s.seen := (rfl)

@[simp] theorem cooperate_saw (s : State) : (cooperate s).saw = s.saw := (rfl)

@[simp] theorem cooperate_dbgRdata (s : State) : (cooperate s).dbgRdata = s.dbgRdata := (rfl)

@[simp] theorem cooperate_schedule (s : State) : (cooperate s).schedule = s.schedule := (rfl)

@[simp] theorem cooperate_freeIdx (s : State) : (cooperate s).freeIdx = s.freeIdx + 2 := (rfl)


/-! ### `raiseLine` -/

@[simp] theorem raiseLine_clock (k : IrqKind) (s : State) : (raiseLine k s).clock = s.clock := (rfl)

@[simp] theorem raiseLine_latch (k : IrqKind) (s : State) : (raiseLine k s).latch = s.latch := (rfl)

@[simp] theorem raiseLine_io (k : IrqKind) (s : State) : (raiseLine k s).io = s.io := (rfl)

@[simp] theorem raiseLine_irq (k : IrqKind) (s : State) : (raiseLine k s).irq = Irq.set s.irq k true := (rfl)

@[simp] theorem raiseLine_seq (k : IrqKind) (s : State) : (raiseLine k s).seq = s.seq := (rfl)

@[simp] theorem raiseLine_time (k : IrqKind) (s : State) : (raiseLine k s).time = s.time := (rfl)

@[simp] theorem raiseLine_vramMode (k : IrqKind) (s : State) : (raiseLine k s).vramMode = s.vramMode := (rfl)

@[simp] theorem raiseLine_output (k : IrqKind) (s : State) : (raiseLine k s).output = s.output := (rfl)

@[simp] theorem raiseLine_stores (k : IrqKind) (s : State) : (raiseLine k s).stores = s.stores := (rfl)

@[simp] theorem raiseLine_outbuf (k : IrqKind) (s : State) : (raiseLine k s).outbuf = s.outbuf := (rfl)

@[simp] theorem raiseLine_log (k : IrqKind) (s : State) : (raiseLine k s).log = Event.cpuRaise k :: s.log := (rfl)

@[simp] theorem raiseLine_powered (k : IrqKind) (s : State) : (raiseLine k s).powered = s.powered := (rfl)

@[simp] theorem raiseLine_seen (k : IrqKind) (s : State) : (raiseLine k s).seen = s.seen := (rfl)

@[simp] theorem raiseLine_saw (k : IrqKind) (s : State) : (raiseLine k s).saw = s.saw := (rfl)

@[simp] theorem raiseLine_dbgRdata (k : IrqKind) (s : State) : (raiseLine k s).dbgRdata = s.dbgRdata := (rfl)

@[simp] theorem raiseLine_schedule (k : IrqKind) (s : State) : (raiseLine k s).schedule = s.schedule := (rfl)

@[simp] theorem raiseLine_freeIdx (k : IrqKind) (s : State) : (raiseLine k s).freeIdx = s.freeIdx := (rfl)


/-! ### `lowerLine` -/

@[simp] theorem lowerLine_clock (k : IrqKind) (s : State) : (lowerLine k s).clock = s.clock := (rfl)

@[simp] theorem lowerLine_latch (k : IrqKind) (s : State) : (lowerLine k s).latch = s.latch := (rfl)

@[simp] theorem lowerLine_io (k : IrqKind) (s : State) : (lowerLine k s).io = s.io := (rfl)

@[simp] theorem lowerLine_irq (k : IrqKind) (s : State) : (lowerLine k s).irq = Irq.set s.irq k false := (rfl)

@[simp] theorem lowerLine_seq (k : IrqKind) (s : State) : (lowerLine k s).seq = s.seq := (rfl)

@[simp] theorem lowerLine_time (k : IrqKind) (s : State) : (lowerLine k s).time = s.time := (rfl)

@[simp] theorem lowerLine_vramMode (k : IrqKind) (s : State) : (lowerLine k s).vramMode = s.vramMode := (rfl)

@[simp] theorem lowerLine_output (k : IrqKind) (s : State) : (lowerLine k s).output = s.output := (rfl)

@[simp] theorem lowerLine_stores (k : IrqKind) (s : State) : (lowerLine k s).stores = s.stores := (rfl)

@[simp] theorem lowerLine_outbuf (k : IrqKind) (s : State) : (lowerLine k s).outbuf = s.outbuf := (rfl)

@[simp] theorem lowerLine_log (k : IrqKind) (s : State) : (lowerLine k s).log = Event.cpuLower k :: s.log := (rfl)

@[simp] theorem lowerLine_powered (k : IrqKind) (s : State) : (lowerLine k s).powered = s.powered := (rfl)

@[simp] theorem lowerLine_seen (k : IrqKind) (s : State) : (lowerLine k s).seen = s.seen := (rfl)

@[simp] theorem lowerLine_saw (k : IrqKind) (s : State) : (lowerLine k s).saw = s.saw := (rfl)

@[simp] theorem lowerLine_dbgRdata (k : IrqKind) (s : State) : (lowerLine k s).dbgRdata = s.dbgRdata := (rfl)

@[simp] theorem lowerLine_schedule (k : IrqKind) (s : State) : (lowerLine k s).schedule = s.schedule := (rfl)

@[simp] theorem lowerLine_freeIdx (k : IrqKind) (s : State) : (lowerLine k s).freeIdx = s.freeIdx := (rfl)


/-! ### `setApuInt` -/

@[simp] theorem setApuInt_clock (b : Bool) (s : State) : (setApuInt b s).clock = s.clock := (rfl)

@[simp] theorem setApuInt_latch (b : Bool) (s : State) : (setApuInt b s).latch = s.latch := (rfl)

@[simp] theorem setApuInt_io (b : Bool) (s : State) : (setApuInt b s).io = s.io := (rfl)

@[simp] theorem setApuInt_irq (b : Bool) (s : State) : (setApuInt b s).irq = ⟨s.irq.hblank, s.irq.vblank, b⟩ := (rfl)

@[simp] theorem setApuInt_seq (b : Bool) (s : State) : (setApuInt b s).seq = s.seq := (rfl)

@[simp] theorem setApuInt_time (b : Bool) (s : State) : (setApuInt b s).time = s.time := (rfl)

@[simp] theorem setApuInt_vramMode (b : Bool) (s : State) : (setApuInt b s).vramMode = s.vramMode := (rfl)

@[simp] theorem setApuInt_output (b : Bool) (s : State) : (setApuInt b s).output = s.output := (rfl)

@[simp] theorem setApuInt_stores (b : Bool) (s : State) : (setApuInt b s).stores = s.stores := (rfl)

@[simp] theorem setApuInt_outbuf (b : Bool) (s : State) : (setApuInt b s).outbuf = s.outbuf := (rfl)

@[simp] theorem setApuInt_log (b : Bool) (s : State) : (setApuInt b s).log = Event.apuSetInt b :: s.log := (rfl)

@[simp] theorem setApuInt_powered (b : Bool) (s : State) : (setApuInt b s).powered = s.powered := (rfl)

@[simp] theorem setApuInt_seen (b : Bool) (s : State) : (setApuInt b s).seen = s.seen := (rfl)

@[simp] theorem setApuInt_saw (b : Bool) (s : State) : (setApuInt b s).saw = s.saw := (rfl)

@[simp] theorem setApuInt_dbgRdata (b : Bool) (s : State) : (setApuInt b s).dbgRdata = s.dbgRdata := (rfl)

@[simp] theorem setApuInt_schedule (b : Bool) (s : State) : (setApuInt b s).schedule = s.schedule := (rfl)

@[simp] theorem setApuInt_freeIdx (b : Bool) (s : State) : (setApuInt b s).freeIdx = s.freeIdx := (rfl)


/-! ### `setVblankFlag` -/

@[simp] theorem setVblankFlag_clock (b : Bool) (s : State) : (setVblankFlag b s).clock = s.clock := (rfl)

@[simp] theorem setVblankFlag_latch (b : Bool) (s : State) : (setVblankFlag b s).latch = s.latch := (rfl)

@[simp] theorem setVblankFlag_io (b : Bool) (s : State) : (setVblankFlag b s).io = ⟨s.io.hic, s.io.hbie, s.io.vbie, b, s.io.overscan, s.io.displayWidth⟩ := (rfl)

@[simp] theorem setVblankFlag_irq (b : Bool) (s : State) : (setVblankFlag b s).irq = s.irq := (rfl)

@[simp] theorem setVblankFlag_seq (b : Bool) (s : State) : (setVblankFlag b s).seq = s.seq := (rfl)

@[simp] theorem setVblankFlag_time (b : Bool) (s : State) : (setVblankFlag b s).time = s.time := (rfl)

@[simp] theorem setVblankFlag_vramMode (b : Bool) (s : State) : (setVblankFlag b s).vramMode = s.vramMode := (rfl)

@[simp] theorem setVblankFlag_output (b : Bool) (s : State) : (setVblankFlag b s).output = s.output := (rfl)

@[simp] theorem setVblankFlag_stores (b : Bool) (s : State) : (setVblankFlag b s).stores = s.stores := (rfl)

@[simp] theorem setVblankFlag_outbuf (b : Bool) (s : State) : (setVblankFlag b s).outbuf = s.outbuf := (rfl)

@[simp] theorem setVblankFlag_log (b : Bool) (s : State) : (setVblankFlag b s).log = s.log := (rfl)

@[simp] theorem setVblankFlag_powered (b : Bool) (s : State) : (setVblankFlag b s).powered = s.powered := (rfl)

@[simp] theorem setVblankFlag_seen (b : Bool) (s : State) : (setVblankFlag b s).seen = s.seen := (rfl)

@[simp] theorem setVblankFlag_saw (b : Bool) (s : State) : (setVblankFlag b s).saw = s.saw := (rfl)

@[simp] theorem setVblankFlag_dbgRdata (b : Bool) (s : State) : (setVblankFlag b s).dbgRdata = s.dbgRdata := (rfl)

@[simp] theorem setVblankFlag_schedule (b : Bool) (s : State) : (setVblankFlag b s).schedule = s.schedule := (rfl)

@[simp] theorem setVblankFlag_freeIdx (b : Bool) (s : State) : (setVblankFlag b s).freeIdx = s.freeIdx := (rfl)


/-! ### `doTick` -/

@[simp] theorem doTick_clock (s : State) : (doTick s).clock = s.clock := (rfl)

@[simp] theorem doTick_latch (s : State) : (doTick s).latch = s.latch := (rfl)

@[simp] theorem doTick_io (s : State) : (doTick s).io = s.io := (rfl)

@[simp] theorem doTick_irq (s : State) : (doTick s).irq = s.irq := (rfl)

@[simp] theorem doTick_seq (s : State) : (doTick s).seq = ⟨.sync, s.seq.rem, s.seq.ret⟩ := (rfl)

@[simp] theorem doTick_time (s : State) : (doTick s).time = ⟨s.time.vdp + 1, s.time.cpu, s.time.apu⟩ := (rfl)

@[simp] theorem doTick_vramMode (s : State) : (doTick s).vramMode = s.vramMode := (rfl)

@[simp] theorem doTick_output (s : State) : (doTick s).output = s.output := (rfl)

@[simp] theorem doTick_stores (s : State) : (doTick s).stores = writeBytes (Config.dmaStores (emit .dmaRun s)) s.stores := (rfl)

@[simp] theorem doTick_outbuf (s : State) : (doTick s).outbuf = s.outbuf := (rfl)

@[simp] theorem doTick_log (s : State) : (doTick s).log = Event.dmaRun :: s.log := (rfl)

@[simp] theorem doTick_powered (s : State) : (doTick s).powered = s.powered := (rfl)

@[simp] theorem doTick_seen (s : State) : (doTick s).seen = s.seen := (rfl)

@[simp] theorem doTick_saw (s : State) : (doTick s).saw = s.saw := (rfl)

@[simp] theorem doTick_dbgRdata (s : State) : (doTick s).dbgRdata = s.dbgRdata := (rfl)

@[simp] theorem doTick_schedule (s : State) : (doTick s).schedule = s.schedule := (rfl)

@[simp] theorem doTick_freeIdx (s : State) : (doTick s).freeIdx = s.freeIdx := (rfl)


/-! ### `endCounters` -/

@[simp] theorem endCounters_clock (s : State) : (endCounters s).clock = ⟨0, 0, s.clock.vcounter, s.clock.field⟩ := (rfl)

@[simp] theorem endCounters_latch (s : State) : (endCounters s).latch = s.latch := (rfl)

@[simp] theorem endCounters_io (s : State) : (endCounters s).io = s.io := (rfl)

@[simp] theorem endCounters_irq (s : State) : (endCounters s).irq = s.irq := (rfl)

@[simp] theorem endCounters_seq (s : State) : (endCounters s).seq = s.seq := (rfl)

@[simp] theorem endCounters_time (s : State) : (endCounters s).time = s.time := (rfl)

@[simp] theorem endCounters_vramMode (s : State) : (endCounters s).vramMode = s.vramMode := (rfl)

@[simp] theorem endCounters_output (s : State) : (endCounters s).output = s.output := (rfl)

@[simp] theorem endCounters_stores (s : State) : (endCounters s).stores = s.stores := (rfl)

@[simp] theorem endCounters_outbuf (s : State) : (endCounters s).outbuf = s.outbuf := (rfl)

@[simp] theorem endCounters_log (s : State) : (endCounters s).log = s.log := (rfl)

@[simp] theorem endCounters_powered (s : State) : (endCounters s).powered = s.powered := (rfl)

@[simp] theorem endCounters_seen (s : State) : (endCounters s).seen = s.seen := (rfl)

@[simp] theorem endCounters_saw (s : State) : (endCounters s).saw = s.saw := (rfl)

@[simp] theorem endCounters_dbgRdata (s : State) : (endCounters s).dbgRdata = s.dbgRdata := (rfl)

@[simp] theorem endCounters_schedule (s : State) : (endCounters s).schedule = s.schedule := (rfl)

@[simp] theorem endCounters_freeIdx (s : State) : (endCounters s).freeIdx = s.freeIdx := (rfl)


/-! ### `endWidth` -/

@[simp] theorem endWidth_clock (s : State) : (endWidth s).clock = s.clock := (rfl)

@[simp] theorem endWidth_latch (s : State) : (endWidth s).latch = ⟨s.latch.hic, s.latch.overscan, s.io.displayWidth⟩ := (rfl)

@[simp] theorem endWidth_io (s : State) : (endWidth s).io = s.io := (rfl)

@[simp] theorem endWidth_irq (s : State) : (endWidth s).irq = s.irq := (rfl)

@[simp] theorem endWidth_seq (s : State) : (endWidth s).seq = s.seq := (rfl)

@[simp] theorem endWidth_time (s : State) : (endWidth s).time = s.time := (rfl)

@[simp] theorem endWidth_vramMode (s : State) : (endWidth s).vramMode = s.vramMode := (rfl)

@[simp] theorem endWidth_output (s : State) : (endWidth s).output = s.output := (rfl)

@[simp] theorem endWidth_stores (s : State) : (endWidth s).stores = s.stores := (rfl)

@[simp] theorem endWidth_outbuf (s : State) : (endWidth s).outbuf = s.outbuf := (rfl)

@[simp] theorem endWidth_log (s : State) : (endWidth s).log = s.log := (rfl)

@[simp] theorem endWidth_powered (s : State) : (endWidth s).powered = s.powered := (rfl)

@[simp] theorem endWidth_seen (s : State) : (endWidth s).seen = s.seen := (rfl)

@[simp] theorem endWidth_saw (s : State) : (endWidth s).saw = s.saw := (rfl)

@[simp] theorem endWidth_dbgRdata (s : State) : (endWidth s).dbgRdata = s.dbgRdata := (rfl)

@[simp] theorem endWidth_schedule (s : State) : (endWidth s).schedule = s.schedule := (rfl)

@[simp] theorem endWidth_freeIdx (s : State) : (endWidth s).freeIdx = s.freeIdx := (rfl)


/-! ### `doPower` -/

@[simp] theorem doPower_clock (reset : Bool) (s : State) : (doPower reset s).clock = ⟨0, 0, 0, false⟩ := (rfl)

@[simp] theorem doPower_latch (reset : Bool) (s : State) : (doPower reset s).latch = ⟨0, false, false⟩ := (rfl)

@[simp] theorem doPower_io (reset : Bool) (s : State) : (doPower reset s).io = ⟨0, false, false, false, false, false⟩ := (rfl)

@[simp] theorem doPower_irq (reset : Bool) (s : State) : (doPower reset s).irq = ⟨false, false, false⟩ := (rfl)

@[simp] theorem doPower_seq (reset : Bool) (s : State) : (doPower reset s).seq = ⟨.pre, 0, .pre⟩ := (rfl)

@[simp] theorem doPower_time (reset : Bool) (s : State) : (doPower reset s).time = ⟨0, s.time.cpu, s.time.apu⟩ := (rfl)

@[simp] theorem doPower_vramMode (reset : Bool) (s : State) : (doPower reset s).vramMode = false := (rfl)

@[simp] theorem doPower_output (reset : Bool) (s : State) : (doPower reset s).output = 0 + Config.margin := (rfl)

@[simp] theorem doPower_stores (reset : Bool) (s : State) : (doPower reset s).stores = (if reset then s.stores else ⟨[], [], []⟩) := (rfl)

@[simp] theorem doPower_outbuf (reset : Bool) (s : State) : (doPower reset s).outbuf = s.outbuf := (rfl)

@[simp] theorem doPower_log (reset : Bool) (s : State) : (doPower reset s).log = powerHooks.reverse ++ s.log := (rfl)

@[simp] theorem doPower_powered (reset : Bool) (s : State) : (doPower reset s).powered = true := (rfl)

@[simp] theorem doPower_seen (reset : Bool) (s : State) : (doPower reset s).seen = s.seen := (rfl)

@[simp] theorem doPower_saw (reset : Bool) (s : State) : (doPower reset s).saw = s.saw := (rfl)

@[simp] theorem doPower_dbgRdata (reset : Bool) (s : State) : (doPower reset s).dbgRdata = s.dbgRdata := (rfl)

@[simp] theorem doPower_schedule (reset : Bool) (s : State) : (doPower reset s).schedule = s.schedule := (rfl)

@[simp] theorem doPower_freeIdx (reset : Bool) (s : State) : (doPower reset s).freeIdx = s.freeIdx := (rfl)


/-! ### `popTurn` -/

@[simp] theorem popTurn_clock (s : State) : (popTurn s).clock = s.clock := (rfl)

@[simp] theorem popTurn_latch (s : State) : (popTurn s).latch = s.latch := (rfl)

@[simp] theorem popTurn_io (s : State) : (popTurn s).io = s.io := (rfl)

@[simp] theorem popTurn_irq (s : State) : (popTurn s).irq = s.irq := (rfl)

@[simp] theorem popTurn_seq (s : State) : (popTurn s).seq = s.seq := (rfl)

@[simp] theorem popTurn_time (s : State) : (popTurn s).time = s.time := (rfl)

@[simp] theorem popTurn_vramMode (s : State) : (popTurn s).vramMode = s.vramMode := (rfl)

@[simp] theorem popTurn_output (s : State) : (popTurn s).output = s.output := (rfl)

@[simp] theorem popTurn_stores (s : State) : (popTurn s).stores = s.stores := (rfl)

@[simp] theorem popTurn_outbuf (s : State) : (popTurn s).outbuf = s.outbuf := (rfl)

@[simp] theorem popTurn_log (s : State) : (popTurn s).log = s.log := (rfl)

@[simp] theorem popTurn_powered (s : State) : (popTurn s).powered = s.powered := (rfl)

@[simp] theorem popTurn_seen (s : State) : (popTurn s).seen = s.seen := (rfl)

@[simp] theorem popTurn_saw (s : State) : (popTurn s).saw = s.saw := (rfl)

@[simp] theorem popTurn_dbgRdata (s : State) : (popTurn s).dbgRdata = s.dbgRdata := (rfl)

@[simp] theorem popTurn_schedule (s : State) : (popTurn s).schedule = s.schedule.tail := (rfl)

@[simp] theorem popTurn_freeIdx (s : State) : (popTurn s).freeIdx = s.freeIdx := (rfl)

/-! ### The geometry functions and the detectors over the operations that leave their inputs alone (R125). -/

@[simp] theorem screenHeight_emit (e : Event) (s : State) : screenHeight (emit e s) = screenHeight s := (rfl)

@[simp] theorem screenHeight_emitAll (es : List Event) (s : State) : screenHeight (emitAll es s) = screenHeight s := (rfl)

@[simp] theorem screenHeight_setPhase (p : Phase) (s : State) : screenHeight (setPhase p s) = screenHeight s := (rfl)

@[simp] theorem screenHeight_enterStep (c : Clocks) (r : Ret) (s : State) : screenHeight (enterStep c r s) = screenHeight s := (rfl)

@[simp] theorem screenHeight_publish (s : State) : screenHeight (publish s) = screenHeight s := (rfl)

@[simp] theorem screenHeight_renderCall (s : State) : screenHeight (renderCall s) = screenHeight s := (rfl)

@[simp] theorem screenHeight_dmaCall (s : State) : screenHeight (dmaCall s) = screenHeight s := (rfl)

@[simp] theorem screenHeight_passBarrier (s : State) : screenHeight (passBarrier s) = screenHeight s := (rfl)

@[simp] theorem screenHeight_cooperate (s : State) : screenHeight (cooperate s) = screenHeight s := (rfl)

@[simp] theorem screenHeight_raiseLine (k : IrqKind) (s : State) : screenHeight (raiseLine k s) = screenHeight s := (rfl)

@[simp] theorem screenHeight_lowerLine (k : IrqKind) (s : State) : screenHeight (lowerLine k s) = screenHeight s := (rfl)

@[simp] theorem screenHeight_setApuInt (b : Bool) (s : State) : screenHeight (setApuInt b s) = screenHeight s := (rfl)

@[simp] theorem screenHeight_setVblankFlag (b : Bool) (s : State) : screenHeight (setVblankFlag b s) = screenHeight s := (rfl)

@[simp] theorem screenHeight_doTick (s : State) : screenHeight (doTick s) = screenHeight s := (rfl)

@[simp] theorem screenHeight_endCounters (s : State) : screenHeight (endCounters s) = screenHeight s := (rfl)

@[simp] theorem screenHeight_popTurn (s : State) : screenHeight (popTurn s) = screenHeight s := (rfl)

@[simp] theorem frameHeight_emit (e : Event) (s : State) : frameHeight (emit e s) = frameHeight s := (rfl)

@[simp] theorem frameHeight_emitAll (es : List Event) (s : State) : frameHeight (emitAll es s) = frameHeight s := (rfl)

@[simp] theorem frameHeight_setPhase (p : Phase) (s : State) : frameHeight (setPhase p s) = frameHeight s := (rfl)

@[simp] theorem frameHeight_enterStep (c : Clocks) (r : Ret) (s : State) : frameHeight (enterStep c r s) = frameHeight s := (rfl)

@[simp] theorem frameHeight_publish (s : State) : frameHeight (publish s) = frameHeight s := (rfl)

@[simp] theorem frameHeight_renderCall (s : State) : frameHeight (renderCall s) = frameHeight s := (rfl)

@[simp] theorem frameHeight_dmaCall (s : State) : frameHeight (dmaCall s) = frameHeight s := (rfl)

@[simp] theorem frameHeight_passBarrier (s : State) : frameHeight (passBarrier s) = frameHeight s := (rfl)

@[simp] theorem frameHeight_cooperate (s : State) : frameHeight (cooperate s) = frameHeight s := (rfl)

@[simp] theorem frameHeight_raiseLine (k : IrqKind) (s : State) : frameHeight (raiseLine k s) = frameHeight s := (rfl)

@[simp] theorem frameHeight_lowerLine (k : IrqKind) (s : State) : frameHeight (lowerLine k s) = frameHeight s := (rfl)

@[simp] theorem frameHeight_setApuInt (b : Bool) (s : State) : frameHeight (setApuInt b s) = frameHeight s := (rfl)

@[simp] theorem frameHeight_setVblankFlag (b : Bool) (s : State) : frameHeight (setVblankFlag b s) = frameHeight s := (rfl)

@[simp] theorem frameHeight_doTick (s : State) : frameHeight (doTick s) = frameHeight s := (rfl)

@[simp] theorem frameHeight_endCounters (s : State) : frameHeight (endCounters s) = frameHeight s := (rfl)

@[simp] theorem frameHeight_popTurn (s : State) : frameHeight (popTurn s) = frameHeight s := (rfl)

@[simp] theorem pixelWidth_emit (e : Event) (s : State) : pixelWidth (emit e s) = pixelWidth s := (rfl)

@[simp] theorem pixelWidth_emitAll (es : List Event) (s : State) : pixelWidth (emitAll es s) = pixelWidth s := (rfl)

@[simp] theorem pixelWidth_setPhase (p : Phase) (s : State) : pixelWidth (setPhase p s) = pixelWidth s := (rfl)

@[simp] theorem pixelWidth_enterStep (c : Clocks) (r : Ret) (s : State) : pixelWidth (enterStep c r s) = pixelWidth s := (rfl)

@[simp] theorem pixelWidth_publish (s : State) : pixelWidth (publish s) = pixelWidth s := (rfl)

@[simp] theorem pixelWidth_renderCall (s : State) : pixelWidth (renderCall s) = pixelWidth s := (rfl)

@[simp] theorem pixelWidth_dmaCall (s : State) : pixelWidth (dmaCall s) = pixelWidth s := (rfl)

@[simp] theorem pixelWidth_passBarrier (s : State) : pixelWidth (passBarrier s) = pixelWidth s := (rfl)

@[simp] theorem pixelWidth_cooperate (s : State) : pixelWidth (cooperate s) = pixelWidth s := (rfl)

@[simp] theorem pixelWidth_raiseLine (k : IrqKind) (s : State) : pixelWidth (raiseLine k s) = pixelWidth s := (rfl)

@[simp] theorem pixelWidth_lowerLine (k : IrqKind) (s : State) : pixelWidth (lowerLine k s) = pixelWidth s := (rfl)

@[simp] theorem pixelWidth_setApuInt (b : Bool) (s : State) : pixelWidth (setApuInt b s) = pixelWidth s := (rfl)

@[simp] theorem pixelWidth_setVblankFlag (b : Bool) (s : State) : pixelWidth (setVblankFlag b s) = pixelWidth s := (rfl)

@[simp] theorem pixelWidth_doTick (s : State) : pixelWidth (doTick s) = pixelWidth s := (rfl)

@[simp] theorem pixelWidth_endCounters (s : State) : pixelWidth (endCounters s) = pixelWidth s := (rfl)

@[simp] theorem pixelWidth_popTurn (s : State) : pixelWidth (popTurn s) = pixelWidth s := (rfl)

@[simp] theorem activeWidth_emit (e : Event) (s : State) : activeWidth (emit e s) = activeWidth s := (rfl)

@[simp] theorem activeWidth_emitAll (es : List Event) (s : State) : activeWidth (emitAll es s) = activeWidth s := (rfl)

@[simp] theorem activeWidth_setPhase (p : Phase) (s : State) : activeWidth (setPhase p s) = activeWidth s := (rfl)

@[simp] theorem activeWidth_enterStep (c : Clocks) (r : Ret) (s : State) : activeWidth (enterStep c r s) = activeWidth s := (rfl)

@[simp] theorem activeWidth_publish (s : State) : activeWidth (publish s) = activeWidth s := (rfl)

@[simp] theorem activeWidth_renderCall (s : State) : activeWidth (renderCall s) = activeWidth s := (rfl)

@[simp] theorem activeWidth_dmaCall (s : State) : activeWidth (dmaCall s) = activeWidth s := (rfl)

@[simp] theorem activeWidth_passBarrier (s : State) : activeWidth (passBarrier s) = activeWidth s := (rfl)

@[simp] theorem activeWidth_cooperate (s : State) : activeWidth (cooperate s) = activeWidth s := (rfl)

@[simp] theorem activeWidth_raiseLine (k : IrqKind) (s : State) : activeWidth (raiseLine k s) = activeWidth s := (rfl)

@[simp] theorem activeWidth_lowerLine (k : IrqKind) (s : State) : activeWidth (lowerLine k s) = activeWidth s := (rfl)

@[simp] theorem activeWidth_setApuInt (b : Bool) (s : State) : activeWidth (setApuInt b s) = activeWidth s := (rfl)

@[simp] theorem activeWidth_setVblankFlag (b : Bool) (s : State) : activeWidth (setVblankFlag b s) = activeWidth s := (rfl)

@[simp] theorem activeWidth_doTick (s : State) : activeWidth (doTick s) = activeWidth s := (rfl)

@[simp] theorem activeWidth_endCounters (s : State) : activeWidth (endCounters s) = activeWidth s := (rfl)

@[simp] theorem activeWidth_popTurn (s : State) : activeWidth (popTurn s) = activeWidth s := (rfl)

@[simp] theorem activeLine_emit (e : Event) (s : State) : activeLine (emit e s) = activeLine s := (rfl)

@[simp] theorem activeLine_emitAll (es : List Event) (s : State) : activeLine (emitAll es s) = activeLine s := (rfl)

@[simp] theorem activeLine_setPhase (p : Phase) (s : State) : activeLine (setPhase p s) = activeLine s := (rfl)

@[simp] theorem activeLine_enterStep (c : Clocks) (r : Ret) (s : State) : activeLine (enterStep c r s) = activeLine s := (rfl)

@[simp] theorem activeLine_publish (s : State) : activeLine (publish s) = activeLine s := (rfl)

@[simp] theorem activeLine_renderCall (s : State) : activeLine (renderCall s) = activeLine s := (rfl)

@[simp] theorem activeLine_dmaCall (s : State) : activeLine (dmaCall s) = activeLine s := (rfl)

@[simp] theorem activeLine_passBarrier (s : State) : activeLine (passBarrier s) = activeLine s := (rfl)

@[simp] theorem activeLine_cooperate (s : State) : activeLine (cooperate s) = activeLine s := (rfl)

@[simp] theorem activeLine_raiseLine (k : IrqKind) (s : State) : activeLine (raiseLine k s) = activeLine s := (rfl)

@[simp] theorem activeLine_lowerLine (k : IrqKind) (s : State) : activeLine (lowerLine k s) = activeLine s := (rfl)

@[simp] theorem activeLine_setApuInt (b : Bool) (s : State) : activeLine (setApuInt b s) = activeLine s := (rfl)

@[simp] theorem activeLine_setVblankFlag (b : Bool) (s : State) : activeLine (setVblankFlag b s) = activeLine s := (rfl)

@[simp] theorem activeLine_doTick (s : State) : activeLine (doTick s) = activeLine s := (rfl)

@[simp] theorem activeLine_endCounters (s : State) : activeLine (endCounters s) = activeLine s := (rfl)

@[simp] theorem activeLine_popTurn (s : State) : activeLine (popTurn s) = activeLine s := (rfl)

@[simp] theorem atTop_emit (e : Event) (s : State) : atTop (emit e s) = atTop s := (rfl)

@[simp] theorem atTop_emitAll (es : List Event) (s : State) : atTop (emitAll es s) = atTop s := (rfl)

@[simp] theorem atTop_setPhase (p : Phase) (s : State) : atTop (setPhase p s) = atTop s := (rfl)

@[simp] theorem atTop_enterStep (c : Clocks) (r : Ret) (s : State) : atTop (enterStep c r s) = atTop s := (rfl)

@[simp] theorem atTop_publish (s : State) : atTop (publish s) = atTop s := (rfl)

@[simp] theorem atTop_renderCall (s : State) : atTop (renderCall s) = atTop s := (rfl)

@[simp] theorem atTop_dmaCall (s : State) : atTop (dmaCall s) = atTop s := (rfl)

@[simp] theorem atTop_passBarrier (s : State) : atTop (passBarrier s) = atTop s := (rfl)

@[simp] theorem atTop_cooperate (s : State) : atTop (cooperate s) = atTop s := (rfl)

@[simp] theorem atTop_raiseLine (k : IrqKind) (s : State) : atTop (raiseLine k s) = atTop s := (rfl)

@[simp] theorem atTop_lowerLine (k : IrqKind) (s : State) : atTop (lowerLine k s) = atTop s := (rfl)

@[simp] theorem atTop_setApuInt (b : Bool) (s : State) : atTop (setApuInt b s) = atTop s := (rfl)

@[simp] theorem atTop_setVblankFlag (b : Bool) (s : State) : atTop (setVblankFlag b s) = atTop s := (rfl)

@[simp] theorem atTop_doTick (s : State) : atTop (doTick s) = atTop s := (rfl)

@[simp] theorem atTop_endCounters (s : State) : atTop (endCounters s) = atTop s := (rfl)

@[simp] theorem atTop_popTurn (s : State) : atTop (popTurn s) = atTop s := (rfl)

@[simp] theorem enteringBlank_emit (e : Event) (s : State) : enteringBlank (emit e s) = enteringBlank s := (rfl)

@[simp] theorem enteringBlank_emitAll (es : List Event) (s : State) : enteringBlank (emitAll es s) = enteringBlank s := (rfl)

@[simp] theorem enteringBlank_setPhase (p : Phase) (s : State) : enteringBlank (setPhase p s) = enteringBlank s := (rfl)

@[simp] theorem enteringBlank_enterStep (c : Clocks) (r : Ret) (s : State) : enteringBlank (enterStep c r s) = enteringBlank s := (rfl)

@[simp] theorem enteringBlank_publish (s : State) : enteringBlank (publish s) = enteringBlank s := (rfl)

@[simp] theorem enteringBlank_renderCall (s : State) : enteringBlank (renderCall s) = enteringBlank s := (rfl)

@[simp] theorem enteringBlank_dmaCall (s : State) : enteringBlank (dmaCall s) = enteringBlank s := (rfl)

@[simp] theorem enteringBlank_passBarrier (s : State) : enteringBlank (passBarrier s) = enteringBlank s := (rfl)

@[simp] theorem enteringBlank_cooperate (s : State) : enteringBlank (cooperate s) = enteringBlank s := (rfl)

@[simp] theorem enteringBlank_raiseLine (k : IrqKind) (s : State) : enteringBlank (raiseLine k s) = enteringBlank s := (rfl)

@[simp] theorem enteringBlank_lowerLine (k : IrqKind) (s : State) : enteringBlank (lowerLine k s) = enteringBlank s := (rfl)

@[simp] theorem enteringBlank_setApuInt (b : Bool) (s : State) : enteringBlank (setApuInt b s) = enteringBlank s := (rfl)

@[simp] theorem enteringBlank_setVblankFlag (b : Bool) (s : State) : enteringBlank (setVblankFlag b s) = enteringBlank s := (rfl)

@[simp] theorem enteringBlank_doTick (s : State) : enteringBlank (doTick s) = enteringBlank s := (rfl)

@[simp] theorem enteringBlank_endCounters (s : State) : enteringBlank (endCounters s) = enteringBlank s := (rfl)

@[simp] theorem enteringBlank_popTurn (s : State) : enteringBlank (popTurn s) = enteringBlank s := (rfl)

@[simp] theorem hicUnderflow_emit (e : Event) (s : State) : hicUnderflow (emit e s) = hicUnderflow s := (rfl)

@[simp] theorem hicUnderflow_emitAll (es : List Event) (s : State) : hicUnderflow (emitAll es s) = hicUnderflow s := (rfl)

@[simp] theorem hicUnderflow_setPhase (p : Phase) (s : State) : hicUnderflow (setPhase p s) = hicUnderflow s := (rfl)

@[simp] theorem hicUnderflow_enterStep (c : Clocks) (r : Ret) (s : State) : hicUnderflow (enterStep c r s) = hicUnderflow s := (rfl)

@[simp] theorem hicUnderflow_publish (s : State) : hicUnderflow (publish s) = hicUnderflow s := (rfl)

@[simp] theorem hicUnderflow_renderCall (s : State) : hicUnderflow (renderCall s) = hicUnderflow s := (rfl)

@[simp] theorem hicUnderflow_dmaCall (s : State) : hicUnderflow (dmaCall s) = hicUnderflow s := (rfl)

@[simp] theorem hicUnderflow_passBarrier (s : State) : hicUnderflow (passBarrier s) = hicUnderflow s := (rfl)

@[simp] theorem hicUnderflow_cooperate (s : State) : hicUnderflow (cooperate s) = hicUnderflow s := (rfl)

@[simp] theorem hicUnderflow_raiseLine (k : IrqKind) (s : State) : hicUnderflow (raiseLine k s) = hicUnderflow s := (rfl)

@[simp] theorem hicUnderflow_lowerLine (k : IrqKind) (s : State) : hicUnderflow (lowerLine k s) = hicUnderflow s := (rfl)

@[simp] theorem hicUnderflow_setApuInt (b : Bool) (s : State) : hicUnderflow (setApuInt b s) = hicUnderflow s := (rfl)

@[simp] theorem hicUnderflow_setVblankFlag (b : Bool) (s : State) : hicUnderflow (setVblankFlag b s) = hicUnderflow s := (rfl)

@[simp] theorem hicUnderflow_doTick (s : State) : hicUnderflow (doTick s) = hicUnderflow s := (rfl)

@[simp] theorem hicUnderflow_endCounters (s : State) : hicUnderflow (endCounters s) = hicUnderflow s := (rfl)

@[simp] theorem hicUnderflow_popTurn (s : State) : hicUnderflow (popTurn s) = hicUnderflow s := (rfl)

@[simp] theorem frameWraps_emit (e : Event) (s : State) : frameWraps (emit e s) = frameWraps s := (rfl)

@[simp] theorem frameWraps_emitAll (es : List Event) (s : State) : frameWraps (emitAll es s) = frameWraps s := (rfl)

@[simp] theorem frameWraps_setPhase (p : Phase) (s : State) : frameWraps (setPhase p s) = frameWraps s := (rfl)

@[simp] theorem frameWraps_enterStep (c : Clocks) (r : Ret) (s : State) : frameWraps (enterStep c r s) = frameWraps s := (rfl)

@[simp] theorem frameWraps_publish (s : State) : frameWraps (publish s) = frameWraps s := (rfl)

@[simp] theorem frameWraps_renderCall (s : State) : frameWraps (renderCall s) = frameWraps s := (rfl)

@[simp] theorem frameWraps_dmaCall (s : State) : frameWraps (dmaCall s) = frameWraps s := (rfl)

@[simp] theorem frameWraps_passBarrier (s : State) : frameWraps (passBarrier s) = frameWraps s := (rfl)

@[simp] theorem frameWraps_cooperate (s : State) : frameWraps (cooperate s) = frameWraps s := (rfl)

@[simp] theorem frameWraps_raiseLine (k : IrqKind) (s : State) : frameWraps (raiseLine k s) = frameWraps s := (rfl)

@[simp] theorem frameWraps_lowerLine (k : IrqKind) (s : State) : frameWraps (lowerLine k s) = frameWraps s := (rfl)

@[simp] theorem frameWraps_setApuInt (b : Bool) (s : State) : frameWraps (setApuInt b s) = frameWraps s := (rfl)

@[simp] theorem frameWraps_setVblankFlag (b : Bool) (s : State) : frameWraps (setVblankFlag b s) = frameWraps s := (rfl)

@[simp] theorem frameWraps_doTick (s : State) : frameWraps (doTick s) = frameWraps s := (rfl)

@[simp] theorem frameWraps_endCounters (s : State) : frameWraps (endCounters s) = frameWraps s := (rfl)

@[simp] theorem frameWraps_popTurn (s : State) : frameWraps (popTurn s) = frameWraps s := (rfl)

end Sys2Proof.Machine
end

