-- ==== Sys2Proof/Laws/Ops.lean ====
section
/-! SUPPORT. One spec lemma per shared operation of Machine/Ops.lean: admission, counter arithmetic, the entry of a
`STEP`, and the barrier. -/

namespace Sys2Proof.Machine

/-! ### Admission: everything the three guards can do -/

theorem whenPowered_next (s t : State) (r : Result) :
    whenPowered s r = .next t ↔ s.powered = true ∧ r = .next t := by
  unfold whenPowered
  cases s.powered <;> simp

theorem whenQuiescent_next (s t : State) (r : Result) :
    whenQuiescent s r = .next t ↔ s.powered = true ∧ quiescent s = true ∧ r = .next t := by
  unfold whenQuiescent
  rw [whenPowered_next]
  cases quiescent s <;> simp

theorem whenYielding_next (s t : State) (r : Result) :
    whenYielding s r = .next t ↔ s.powered = true ∧ quiescent s = true ∧ r = .next t := by
  unfold whenYielding
  rw [whenPowered_next]
  cases quiescent s <;> simp

@[simp] theorem whenPowered_of_powered (s : State) (r : Result) (h : s.powered = true) : whenPowered s r = r := by
  simp [whenPowered, h]

@[simp] theorem whenQuiescent_of_quiescent (s : State) (r : Result) (h : s.powered = true) (hq : quiescent s = true) :
    whenQuiescent s r = r := by
  simp [whenQuiescent, h, hq]

@[simp] theorem whenYielding_of_quiescent (s : State) (r : Result) (h : s.powered = true) (hq : quiescent s = true) :
    whenYielding s r = r := by
  simp [whenYielding, h, hq]

theorem whenPowered_of_unpowered (s : State) (r : Result) (h : s.powered = false) :
    whenPowered s r = .refused .notPowered := by
  simp [whenPowered, h]

theorem quiescent_iff (s : State) : quiescent s = true ↔ s.seq.ph = .pre ∨ s.seq.ph = .sync := by
  simp [quiescent]

/-! ### Counter arithmetic (R48) -/

theorem addCounter_toNat (c : Counter) (n : Nat) (h : c.toNat + n < 65536) :
    (addCounter c n).toNat = c.toNat + n := by
  simp only [addCounter, h, if_true, BitVec.toNat_ofNat]
  omega

theorem decRem_toNat (r : Clocks) (h : 1 ≤ r.toNat) : (decRem r).toNat = r.toNat - 1 := by
  have hr : r ≠ 0 := by
    rintro rfl
    simp at h
  have : r.toNat < 2 ^ 11 := r.isLt
  simp only [decRem, hr, if_false]
  bv_omega

/-! ### What `MAINCPU` reads (R77, R131) -/

theorem cpuReads_at_sync (s : State) (h : s.seq.ph = .sync) :
    cpuReads s = { s.seen.cpu with clock := { s.seen.cpu.clock with hcounter := s.clock.hcounter } } := by
  simp [cpuReads, hcounterRead, h]

theorem cpuReads_elsewhere (s : State) (h : s.seq.ph ≠ .sync) : cpuReads s = s.seen.cpu := by
  simp [cpuReads, hcounterRead, h]

/-- Of what is read only `hcounter` can differ from what was last made visible. -/
theorem cpuReads_visible (s : State) :
    { cpuReads s with clock := { (cpuReads s).clock with hcounter := s.seen.cpu.clock.hcounter } } = s.seen.cpu := rfl

/-! ### The barrier (R133, R134, R112) -/

theorem fSys_pos : 0 < fSys := by
  simp [fSys]

theorem fCpu_pos : 0 < fCpu := by
  simp [fCpu]

theorem fApu_pos : 0 < fApu := by
  simp [fApu]

theorem caughtUp_iff (f t : Nat) (s : State) :
    caughtUp f t s = true ↔ s.time.vdp * Config.clockDiv * f ≤ t * fSys := by
  simp [caughtUp]

/-- `leastCaughtUp` is the least time at which the sibling has caught up. -/
theorem caughtUp_iff_least (f t : Nat) (s : State) : caughtUp f t s = true ↔ leastCaughtUp f s ≤ t := by
  have hp := fSys_pos
  rw [caughtUp_iff, leastCaughtUp]
  generalize s.time.vdp * Config.clockDiv * f = x
  constructor
  · intro h
    have h1 : x + (fSys - 1) < (t + 1) * fSys := by
      have : (t + 1) * fSys = t * fSys + fSys := by ring
      omega
    have := (Nat.div_lt_iff_lt_mul hp).2 h1
    omega
  · intro h
    have h1 : (x + (fSys - 1)) / fSys < t + 1 := by omega
    have h2 := (Nat.div_lt_iff_lt_mul hp).1 h1
    have : (t + 1) * fSys = t * fSys + fSys := by ring
    omega

theorem caughtUp_mono (f t t' : Nat) (s : State) (h : t ≤ t') (hc : caughtUp f t s = true) :
    caughtUp f t' s = true := by
  rw [caughtUp_iff_least] at *
  omega

/-- After the siblings cooperate the barrier is open (R112). -/
theorem barrierOpen_cooperate (s : State) : barrierOpen (cooperate s) = true := by
  have hl : ∀ f, leastCaughtUp f (cooperate s) = leastCaughtUp f s := fun _ => rfl
  simp only [barrierOpen, Bool.and_eq_true, caughtUp_iff_least, hl, cooperate_time]
  omega

end Sys2Proof.Machine
end

