-- ==== Sys2Proof/Laws/Engine.lean ====
section
/-! SUPPORT. One spec lemma per field per micro-operation: everything `PRE`, `HINT`, `DOT` and `END` do, and everything
they leave alone. Provers cite these instead of unfolding the meanings. -/

namespace Sys2Proof.Machine

/-! ### `PRE` (R140 to R144) -/

@[simp] theorem preHook_clock (s : State) : (preHook s).clock = s.clock := by
  unfold preHook; split <;> rfl

@[simp] theorem preHook_latch (s : State) : (preHook s).latch = s.latch := by
  unfold preHook; split <;> rfl

@[simp] theorem preHook_io (s : State) : (preHook s).io = s.io := by
  unfold preHook; split <;> rfl

@[simp] theorem preHook_irq (s : State) : (preHook s).irq = s.irq := by
  unfold preHook; split <;> rfl

@[simp] theorem preHook_seq (s : State) : (preHook s).seq = s.seq := by
  unfold preHook; split <;> rfl

@[simp] theorem preHook_time (s : State) : (preHook s).time = s.time := by
  unfold preHook; split <;> rfl

@[simp] theorem preHook_vramMode (s : State) : (preHook s).vramMode = s.vramMode := by
  unfold preHook; split <;> rfl

@[simp] theorem preHook_output (s : State) : (preHook s).output = s.output := by
  unfold preHook; split <;> rfl

@[simp] theorem preHook_powered (s : State) : (preHook s).powered = s.powered := by
  unfold preHook; split <;> rfl

@[simp] theorem preHook_seen (s : State) : (preHook s).seen = s.seen := by
  unfold preHook; split <;> rfl

@[simp] theorem preHook_saw (s : State) : (preHook s).saw = s.saw := by
  unfold preHook; split <;> rfl

@[simp] theorem preHook_dbgRdata (s : State) : (preHook s).dbgRdata = s.dbgRdata := by
  unfold preHook; split <;> rfl

@[simp] theorem preHook_schedule (s : State) : (preHook s).schedule = s.schedule := by
  unfold preHook; split <;> rfl

@[simp] theorem preHook_freeIdx (s : State) : (preHook s).freeIdx = s.freeIdx := by
  unfold preHook; split <;> rfl

@[simp] theorem prePulse_clock (s : State) : (prePulse s).clock = s.clock := by
  exact (rfl)

@[simp] theorem prePulse_latch (s : State) : (prePulse s).latch = s.latch := by
  exact (rfl)

@[simp] theorem prePulse_io (s : State) : (prePulse s).io = s.io := by
  exact (rfl)

@[simp] theorem prePulse_seq (s : State) : (prePulse s).seq = s.seq := by
  exact (rfl)

@[simp] theorem prePulse_time (s : State) : (prePulse s).time = s.time := by
  exact (rfl)

@[simp] theorem prePulse_vramMode (s : State) : (prePulse s).vramMode = s.vramMode := by
  exact (rfl)

@[simp] theorem prePulse_output (s : State) : (prePulse s).output = s.output := by
  exact (rfl)

@[simp] theorem prePulse_stores (s : State) : (prePulse s).stores = s.stores := by
  exact (rfl)

@[simp] theorem prePulse_outbuf (s : State) : (prePulse s).outbuf = s.outbuf := by
  exact (rfl)

@[simp] theorem prePulse_powered (s : State) : (prePulse s).powered = s.powered := by
  exact (rfl)

@[simp] theorem prePulse_seen (s : State) : (prePulse s).seen = s.seen := by
  exact (rfl)

@[simp] theorem prePulse_saw (s : State) : (prePulse s).saw = s.saw := by
  exact (rfl)

@[simp] theorem prePulse_dbgRdata (s : State) : (prePulse s).dbgRdata = s.dbgRdata := by
  exact (rfl)

@[simp] theorem prePulse_schedule (s : State) : (prePulse s).schedule = s.schedule := by
  exact (rfl)

@[simp] theorem prePulse_freeIdx (s : State) : (prePulse s).freeIdx = s.freeIdx := by
  exact (rfl)

@[simp] theorem preTop_clock (s : State) : (preTop s).clock = s.clock := by
  unfold preTop; split <;> rfl

@[simp] theorem preTop_seq (s : State) : (preTop s).seq = s.seq := by
  unfold preTop; split <;> rfl

@[simp] theorem preTop_time (s : State) : (preTop s).time = s.time := by
  unfold preTop; split <;> rfl

@[simp] theorem preTop_vramMode (s : State) : (preTop s).vramMode = s.vramMode := by
  unfold preTop; split <;> rfl

@[simp] theorem preTop_output (s : State) : (preTop s).output = s.output := by
  unfold preTop; split <;> rfl

@[simp] theorem preTop_stores (s : State) : (preTop s).stores = s.stores := by
  unfold preTop; split <;> rfl

@[simp] theorem preTop_outbuf (s : State) : (preTop s).outbuf = s.outbuf := by
  unfold preTop; split <;> rfl

@[simp] theorem preTop_powered (s : State) : (preTop s).powered = s.powered := by
  unfold preTop; split <;> rfl

@[simp] theorem preTop_seen (s : State) : (preTop s).seen = s.seen := by
  unfold preTop; split <;> rfl

@[simp] theorem preTop_saw (s : State) : (preTop s).saw = s.saw := by
  unfold preTop; split <;> rfl

@[simp] theorem preTop_dbgRdata (s : State) : (preTop s).dbgRdata = s.dbgRdata := by
  unfold preTop; split <;> rfl

@[simp] theorem preTop_schedule (s : State) : (preTop s).schedule = s.schedule := by
  unfold preTop; split <;> rfl

@[simp] theorem preTop_freeIdx (s : State) : (preTop s).freeIdx = s.freeIdx := by
  unfold preTop; split <;> rfl

@[simp] theorem raiseVblank_clock (s : State) : (raiseVblank s).clock = s.clock := by
  unfold raiseVblank; split <;> rfl

@[simp] theorem raiseVblank_latch (s : State) : (raiseVblank s).latch = s.latch := by
  unfold raiseVblank; split <;> rfl

@[simp] theorem raiseVblank_seq (s : State) : (raiseVblank s).seq = s.seq := by
  unfold raiseVblank; split <;> rfl

@[simp] theorem raiseVblank_time (s : State) : (raiseVblank s).time = s.time := by
  unfold raiseVblank; split <;> rfl

@[simp] theorem raiseVblank_vramMode (s : State) : (raiseVblank s).vramMode = s.vramMode := by
  unfold raiseVblank; split <;> rfl

@[simp] theorem raiseVblank_output (s : State) : (raiseVblank s).output = s.output := by
  unfold raiseVblank; split <;> rfl

@[simp] theorem raiseVblank_stores (s : State) : (raiseVblank s).stores = s.stores := by
  unfold raiseVblank; split <;> rfl

@[simp] theorem raiseVblank_outbuf (s : State) : (raiseVblank s).outbuf = s.outbuf := by
  unfold raiseVblank; split <;> rfl

@[simp] theorem raiseVblank_powered (s : State) : (raiseVblank s).powered = s.powered := by
  unfold raiseVblank; split <;> rfl

@[simp] theorem raiseVblank_seen (s : State) : (raiseVblank s).seen = s.seen := by
  unfold raiseVblank; split <;> rfl

@[simp] theorem raiseVblank_saw (s : State) : (raiseVblank s).saw = s.saw := by
  unfold raiseVblank; split <;> rfl

@[simp] theorem raiseVblank_dbgRdata (s : State) : (raiseVblank s).dbgRdata = s.dbgRdata := by
  unfold raiseVblank; split <;> rfl

@[simp] theorem raiseVblank_schedule (s : State) : (raiseVblank s).schedule = s.schedule := by
  unfold raiseVblank; split <;> rfl

@[simp] theorem raiseVblank_freeIdx (s : State) : (raiseVblank s).freeIdx = s.freeIdx := by
  unfold raiseVblank; split <;> rfl

@[simp] theorem preBlanking_clock (s : State) : (preBlanking s).clock = s.clock := by
  unfold preBlanking; split <;> simp

@[simp] theorem preBlanking_latch (s : State) : (preBlanking s).latch = s.latch := by
  unfold preBlanking; split <;> simp

@[simp] theorem preBlanking_seq (s : State) : (preBlanking s).seq = s.seq := by
  unfold preBlanking; split <;> simp

@[simp] theorem preBlanking_time (s : State) : (preBlanking s).time = s.time := by
  unfold preBlanking; split <;> simp

@[simp] theorem preBlanking_vramMode (s : State) : (preBlanking s).vramMode = s.vramMode := by
  unfold preBlanking; split <;> simp

@[simp] theorem preBlanking_output (s : State) : (preBlanking s).output = s.output := by
  unfold preBlanking; split <;> simp

@[simp] theorem preBlanking_stores (s : State) : (preBlanking s).stores = s.stores := by
  unfold preBlanking; split <;> simp

@[simp] theorem preBlanking_outbuf (s : State) : (preBlanking s).outbuf = s.outbuf := by
  unfold preBlanking; split <;> simp

@[simp] theorem preBlanking_powered (s : State) : (preBlanking s).powered = s.powered := by
  unfold preBlanking; split <;> simp

@[simp] theorem preBlanking_seen (s : State) : (preBlanking s).seen = s.seen := by
  unfold preBlanking; split <;> simp

@[simp] theorem preBlanking_saw (s : State) : (preBlanking s).saw = s.saw := by
  unfold preBlanking; split <;> simp

@[simp] theorem preBlanking_dbgRdata (s : State) : (preBlanking s).dbgRdata = s.dbgRdata := by
  unfold preBlanking; split <;> simp

@[simp] theorem preBlanking_schedule (s : State) : (preBlanking s).schedule = s.schedule := by
  unfold preBlanking; split <;> simp

@[simp] theorem preBlanking_freeIdx (s : State) : (preBlanking s).freeIdx = s.freeIdx := by
  unfold preBlanking; split <;> simp

@[simp] theorem preDispatch_latch (s : State) : (preDispatch s).latch = s.latch := by
  unfold preDispatch; split <;> simp

@[simp] theorem preDispatch_io (s : State) : (preDispatch s).io = s.io := by
  unfold preDispatch; split <;> simp

@[simp] theorem preDispatch_irq (s : State) : (preDispatch s).irq = s.irq := by
  unfold preDispatch; split <;> simp

@[simp] theorem preDispatch_time (s : State) : (preDispatch s).time = s.time := by
  unfold preDispatch; split <;> simp

@[simp] theorem preDispatch_vramMode (s : State) : (preDispatch s).vramMode = s.vramMode := by
  unfold preDispatch; split <;> simp

@[simp] theorem preDispatch_output (s : State) : (preDispatch s).output = s.output := by
  unfold preDispatch; split <;> simp

@[simp] theorem preDispatch_stores (s : State) : (preDispatch s).stores = s.stores := by
  unfold preDispatch; split <;> simp

@[simp] theorem preDispatch_outbuf (s : State) : (preDispatch s).outbuf = s.outbuf := by
  unfold preDispatch; split <;> simp

@[simp] theorem preDispatch_log (s : State) : (preDispatch s).log = s.log := by
  unfold preDispatch; split <;> simp

@[simp] theorem preDispatch_powered (s : State) : (preDispatch s).powered = s.powered := by
  unfold preDispatch; split <;> simp

@[simp] theorem preDispatch_seen (s : State) : (preDispatch s).seen = s.seen := by
  unfold preDispatch; split <;> simp

@[simp] theorem preDispatch_saw (s : State) : (preDispatch s).saw = s.saw := by
  unfold preDispatch; split <;> simp

@[simp] theorem preDispatch_dbgRdata (s : State) : (preDispatch s).dbgRdata = s.dbgRdata := by
  unfold preDispatch; split <;> simp

@[simp] theorem preDispatch_schedule (s : State) : (preDispatch s).schedule = s.schedule := by
  unfold preDispatch; split <;> simp

@[simp] theorem preDispatch_freeIdx (s : State) : (preDispatch s).freeIdx = s.freeIdx := by
  unfold preDispatch; split <;> simp

@[simp] theorem screenHeight_preHook (s : State) : screenHeight (preHook s) = screenHeight s := by
  unfold preHook; split <;> rfl

@[simp] theorem frameHeight_preHook (s : State) : frameHeight (preHook s) = frameHeight s := by
  unfold preHook; split <;> rfl

@[simp] theorem pixelWidth_preHook (s : State) : pixelWidth (preHook s) = pixelWidth s := by
  unfold preHook; split <;> rfl

@[simp] theorem activeWidth_preHook (s : State) : activeWidth (preHook s) = activeWidth s := by
  unfold preHook; split <;> rfl

@[simp] theorem activeLine_preHook (s : State) : activeLine (preHook s) = activeLine s := by
  unfold preHook; split <;> rfl

@[simp] theorem screenHeight_prePulse (s : State) : screenHeight (prePulse s) = screenHeight s := by
  exact (rfl)

@[simp] theorem frameHeight_prePulse (s : State) : frameHeight (prePulse s) = frameHeight s := by
  exact (rfl)

@[simp] theorem pixelWidth_prePulse (s : State) : pixelWidth (prePulse s) = pixelWidth s := by
  exact (rfl)

@[simp] theorem activeWidth_prePulse (s : State) : activeWidth (prePulse s) = activeWidth s := by
  exact (rfl)

@[simp] theorem activeLine_prePulse (s : State) : activeLine (prePulse s) = activeLine s := by
  exact (rfl)

@[simp] theorem screenHeight_preTop (s : State) : screenHeight (preTop s) = screenHeight s := by
  unfold preTop; split <;> rfl

@[simp] theorem frameHeight_preTop (s : State) : frameHeight (preTop s) = frameHeight s := by
  unfold preTop; split <;> rfl

@[simp] theorem pixelWidth_preTop (s : State) : pixelWidth (preTop s) = pixelWidth s := by
  unfold preTop; split <;> rfl

@[simp] theorem activeWidth_preTop (s : State) : activeWidth (preTop s) = activeWidth s := by
  unfold preTop; split <;> rfl

@[simp] theorem activeLine_preTop (s : State) : activeLine (preTop s) = activeLine s := by
  unfold preTop; split <;> rfl

@[simp] theorem screenHeight_raiseVblank (s : State) : screenHeight (raiseVblank s) = screenHeight s := by
  unfold raiseVblank; split <;> rfl

@[simp] theorem frameHeight_raiseVblank (s : State) : frameHeight (raiseVblank s) = frameHeight s := by
  unfold raiseVblank; split <;> rfl

@[simp] theorem pixelWidth_raiseVblank (s : State) : pixelWidth (raiseVblank s) = pixelWidth s := by
  unfold raiseVblank; split <;> rfl

@[simp] theorem activeWidth_raiseVblank (s : State) : activeWidth (raiseVblank s) = activeWidth s := by
  unfold raiseVblank; split <;> rfl

@[simp] theorem activeLine_raiseVblank (s : State) : activeLine (raiseVblank s) = activeLine s := by
  unfold raiseVblank; split <;> rfl

@[simp] theorem screenHeight_preBlanking (s : State) : screenHeight (preBlanking s) = screenHeight s := by
  unfold preBlanking; split <;> simp

@[simp] theorem frameHeight_preBlanking (s : State) : frameHeight (preBlanking s) = frameHeight s := by
  unfold preBlanking; split <;> simp

@[simp] theorem pixelWidth_preBlanking (s : State) : pixelWidth (preBlanking s) = pixelWidth s := by
  unfold preBlanking; split <;> simp

@[simp] theorem activeWidth_preBlanking (s : State) : activeWidth (preBlanking s) = activeWidth s := by
  unfold preBlanking; split <;> simp

@[simp] theorem activeLine_preBlanking (s : State) : activeLine (preBlanking s) = activeLine s := by
  unfold preBlanking; split <;> simp

@[simp] theorem screenHeight_preDispatch (s : State) : screenHeight (preDispatch s) = screenHeight s := by
  unfold preDispatch; split <;> simp

@[simp] theorem frameHeight_preDispatch (s : State) : frameHeight (preDispatch s) = frameHeight s := by
  unfold preDispatch; split <;> simp

@[simp] theorem pixelWidth_preDispatch (s : State) : pixelWidth (preDispatch s) = pixelWidth s := by
  unfold preDispatch; split <;> simp

@[simp] theorem activeWidth_preDispatch (s : State) : activeWidth (preDispatch s) = activeWidth s := by
  unfold preDispatch; split <;> simp

@[simp] theorem activeLine_preDispatch (s : State) : activeLine (preDispatch s) = activeLine s := by
  unfold preDispatch; split <;> simp

@[simp] theorem doPre_time (s : State) : (doPre s).time = s.time := by
  simp [doPre]

@[simp] theorem doPre_vramMode (s : State) : (doPre s).vramMode = s.vramMode := by
  simp [doPre]

@[simp] theorem doPre_output (s : State) : (doPre s).output = s.output := by
  simp [doPre]

@[simp] theorem doPre_powered (s : State) : (doPre s).powered = s.powered := by
  simp [doPre]

@[simp] theorem doPre_seen (s : State) : (doPre s).seen = s.seen := by
  simp [doPre]

@[simp] theorem doPre_saw (s : State) : (doPre s).saw = s.saw := by
  simp [doPre]

@[simp] theorem doPre_dbgRdata (s : State) : (doPre s).dbgRdata = s.dbgRdata := by
  simp [doPre]

@[simp] theorem doPre_schedule (s : State) : (doPre s).schedule = s.schedule := by
  simp [doPre]

@[simp] theorem doPre_freeIdx (s : State) : (doPre s).freeIdx = s.freeIdx := by
  simp [doPre]

@[simp] theorem screenHeight_doPre (s : State) : screenHeight (doPre s) = screenHeight s := by
  simp [doPre]

@[simp] theorem frameHeight_doPre (s : State) : frameHeight (doPre s) = frameHeight s := by
  simp [doPre]

@[simp] theorem pixelWidth_doPre (s : State) : pixelWidth (doPre s) = pixelWidth s := by
  simp [doPre]

@[simp] theorem activeWidth_doPre (s : State) : activeWidth (doPre s) = activeWidth s := by
  simp [doPre]

@[simp] theorem activeLine_doPre (s : State) : activeLine (doPre s) = activeLine s := by
  simp [doPre]

theorem preHook_log (s : State) :
    (preHook s).log = if activeLine s then .lineHook s.clock.vcounter :: s.log else s.log := by
  unfold preHook; split <;> rfl

theorem preHook_stores (s : State) :
    (preHook s).stores =
      if activeLine s then writeBytes (Config.renderStores (emit (.lineHook s.clock.vcounter) s)) s.stores
      else s.stores := by
  unfold preHook; split <;> rfl

theorem preHook_outbuf (s : State) :
    (preHook s).outbuf =
      if activeLine s then writePixels (Config.renderPixels (emit (.lineHook s.clock.vcounter) s)) s.outbuf
      else s.outbuf := by
  unfold preHook; split <;> rfl

theorem prePulse_log (s : State) :
    (prePulse s).log = .apuSetInt false :: .cpuLower .hblank :: s.log := rfl

theorem prePulse_irq (s : State) : (prePulse s).irq = ⟨false, s.irq.vblank, false⟩ := rfl

theorem preTop_log (s : State) : (preTop s).log = if atTop s then .cpuLower .vblank :: s.log else s.log := by
  unfold preTop; split <;> rfl

theorem preTop_irq (s : State) :
    (preTop s).irq = if atTop s then ⟨s.irq.hblank, false, s.irq.apuInt⟩ else s.irq := by
  unfold preTop; split <;> rfl

theorem preTop_io (s : State) :
    (preTop s).io = if atTop s then { s.io with vblankIRQ := false } else s.io := by
  unfold preTop; split <;> rfl

theorem preTop_latch (s : State) :
    (preTop s).latch = if atTop s then { s.latch with hic := s.io.hic } else s.latch := by
  unfold preTop; split <;> rfl

theorem preBlanking_log (s : State) :
    (preBlanking s).log =
      if enteringBlank s then
        .apuSetInt true :: (if s.io.vbie then .cpuRaise .vblank :: s.log else s.log)
      else s.log := by
  unfold preBlanking raiseVblank
  cases enteringBlank s <;> cases s.io.vbie <;> rfl

theorem preBlanking_irq (s : State) :
    (preBlanking s).irq =
      if enteringBlank s then ⟨s.irq.hblank, s.io.vbie || s.irq.vblank, true⟩ else s.irq := by
  unfold preBlanking raiseVblank
  cases enteringBlank s <;> cases h : s.io.vbie <;> rfl

theorem preBlanking_io (s : State) :
    (preBlanking s).io =
      if enteringBlank s then { s.io with vblankIRQ := s.io.vbie || s.io.vblankIRQ } else s.io := by
  obtain ⟨_, _, ⟨_, _, v, b, _, _⟩, _, _, _, _, _, _, _, _, _, _, _, _, _, _⟩ := s
  unfold preBlanking raiseVblank
  split
  · cases v <;> cases b <;> rfl
  · rfl

theorem preDispatch_seq (s : State) :
    (preDispatch s).seq =
      if activeLine s then ⟨.dot, s.seq.rem, s.seq.ret⟩ else ⟨.tick, Config.lineBlank, .endLine⟩ := by
  unfold preDispatch; split <;> rfl

theorem preDispatch_clock (s : State) :
    (preDispatch s).clock =
      if activeLine s then s.clock
      else ⟨addCounter s.clock.hcounter 1710, s.clock.hdot, s.clock.vcounter, s.clock.field⟩ := by
  unfold preDispatch; split <;> rfl

/-! The detectors of `PRE` read nothing that an earlier part of `PRE` writes. -/

@[simp] theorem atTop_of_preParts (s : State) : atTop (prePulse (preHook s)) = atTop s := by
  simp [atTop]

@[simp] theorem enteringBlank_of_preParts (s : State) :
    enteringBlank (preTop (prePulse (preHook s))) = enteringBlank s := by
  simp [enteringBlank]

theorem not_atTop_of_enteringBlank (s : State) (h : enteringBlank s = true) : atTop s = false := by
  have hp : 0 < screenHeight s := by
    unfold screenHeight screenHeightOf shTall shShort
    split <;> omega
  simp only [enteringBlank, beq_iff_eq] at h
  simp only [atTop, beq_eq_false_iff_ne, ne_eq]
  intro hv
  rw [hv] at h
  simp at h
  omega

/-- The stores after `PRE`: the rendering collaborator's writes on an active line (R144, U10). -/
theorem doPre_stores (s : State) :
    (doPre s).stores =
      if activeLine s then writeBytes (Config.renderStores (emit (.lineHook s.clock.vcounter) s)) s.stores
      else s.stores := by
  simp [doPre, preHook_stores]

theorem doPre_outbuf (s : State) :
    (doPre s).outbuf =
      if activeLine s then writePixels (Config.renderPixels (emit (.lineHook s.clock.vcounter) s)) s.outbuf
      else s.outbuf := by
  simp [doPre, preHook_outbuf]

/-- The sequencer after `PRE` (R151, R154). -/
theorem doPre_seq (s : State) :
    (doPre s).seq =
      if activeLine s then ⟨.dot, s.seq.rem, s.seq.ret⟩ else ⟨.tick, Config.lineBlank, .endLine⟩ := by
  simp [doPre, preDispatch_seq]

/-- The counters after `PRE` (R154). -/
theorem doPre_clock (s : State) :
    (doPre s).clock =
      if activeLine s then s.clock
      else ⟨addCounter s.clock.hcounter 1710, s.clock.hdot, s.clock.vcounter, s.clock.field⟩ := by
  simp [doPre, preDispatch_clock]

/-- The latches after `PRE` (R142). -/
theorem doPre_latch (s : State) :
    (doPre s).latch = if atTop s then { s.latch with hic := s.io.hic } else s.latch := by
  simp [doPre, preTop_latch]

/-- The interrupt outputs after `PRE` (R141 to R143). -/
theorem doPre_irq (s : State) :
    (doPre s).irq =
      ⟨false, if atTop s then false else (enteringBlank s && s.io.vbie) || s.irq.vblank, enteringBlank s⟩ := by
  simp only [doPre, preDispatch_irq, preBlanking_irq, enteringBlank_of_preParts, preTop_irq, atTop_of_preParts,
    prePulse_irq, preTop_io, preHook_irq, prePulse_io, preHook_io]
  by_cases he : enteringBlank s = true
  · simp [he, not_atTop_of_enteringBlank s he]
  · simp only [Bool.not_eq_true] at he
    cases h : atTop s <;> simp [he]

/-- The configuration snapshot after `PRE` (R36). -/
theorem doPre_io (s : State) :
    (doPre s).io =
      { s.io with
        vblankIRQ := if atTop s then false else (enteringBlank s && s.io.vbie) || s.io.vblankIRQ } := by
  simp only [doPre, preDispatch_io, preBlanking_io, enteringBlank_of_preParts, preTop_io, atTop_of_preParts,
    prePulse_io, preHook_io]
  by_cases he : enteringBlank s = true
  · simp [he, not_atTop_of_enteringBlank s he]
  · simp only [Bool.not_eq_true] at he
    cases h : atTop s <;> simp [he]

/-- The log after `PRE`, newest first (R140). -/
theorem doPre_log (s : State) :
    (doPre s).log =
      (if enteringBlank s then .apuSetInt true :: (if s.io.vbie then [.cpuRaise .vblank] else []) else []) ++
        (if atTop s then [.cpuLower .vblank] else []) ++
        (.apuSetInt false :: .cpuLower .hblank ::
          (if activeLine s then [.lineHook s.clock.vcounter] else [])) ++ s.log := by
  simp only [doPre, preDispatch_log, preBlanking_log, enteringBlank_of_preParts, preTop_log, atTop_of_preParts,
    prePulse_log, preHook_log, preTop_io, prePulse_io, preHook_io]
  by_cases he : enteringBlank s = true
  · simp only [he, not_atTop_of_enteringBlank s he]
    cases h : s.io.vbie <;> cases activeLine s <;> simp [h]
  · simp only [Bool.not_eq_true] at he
    cases atTop s <;> cases activeLine s <;> simp [he]

/-! ### `HINT` (R145) -/

@[simp] theorem hintCount_clock (s : State) : (hintCount s).clock = s.clock := by
  unfold hintCount; cases hicUnderflow s <;> cases h : s.io.hbie <;> simp [h]

@[simp] theorem hintCount_io (s : State) : (hintCount s).io = s.io := by
  unfold hintCount; cases hicUnderflow s <;> cases h : s.io.hbie <;> simp [h]

@[simp] theorem hintCount_seq (s : State) : (hintCount s).seq = s.seq := by
  unfold hintCount; cases hicUnderflow s <;> cases h : s.io.hbie <;> simp [h]

@[simp] theorem hintCount_time (s : State) : (hintCount s).time = s.time := by
  unfold hintCount; cases hicUnderflow s <;> cases h : s.io.hbie <;> simp [h]

@[simp] theorem hintCount_vramMode (s : State) : (hintCount s).vramMode = s.vramMode := by
  unfold hintCount; cases hicUnderflow s <;> cases h : s.io.hbie <;> simp [h]

@[simp] theorem hintCount_output (s : State) : (hintCount s).output = s.output := by
  unfold hintCount; cases hicUnderflow s <;> cases h : s.io.hbie <;> simp [h]

@[simp] theorem hintCount_stores (s : State) : (hintCount s).stores = s.stores := by
  unfold hintCount; cases hicUnderflow s <;> cases h : s.io.hbie <;> simp [h]

@[simp] theorem hintCount_outbuf (s : State) : (hintCount s).outbuf = s.outbuf := by
  unfold hintCount; cases hicUnderflow s <;> cases h : s.io.hbie <;> simp [h]

@[simp] theorem hintCount_powered (s : State) : (hintCount s).powered = s.powered := by
  unfold hintCount; cases hicUnderflow s <;> cases h : s.io.hbie <;> simp [h]

@[simp] theorem hintCount_seen (s : State) : (hintCount s).seen = s.seen := by
  unfold hintCount; cases hicUnderflow s <;> cases h : s.io.hbie <;> simp [h]

@[simp] theorem hintCount_saw (s : State) : (hintCount s).saw = s.saw := by
  unfold hintCount; cases hicUnderflow s <;> cases h : s.io.hbie <;> simp [h]

@[simp] theorem hintCount_dbgRdata (s : State) : (hintCount s).dbgRdata = s.dbgRdata := by
  unfold hintCount; cases hicUnderflow s <;> cases h : s.io.hbie <;> simp [h]

@[simp] theorem hintCount_schedule (s : State) : (hintCount s).schedule = s.schedule := by
  unfold hintCount; cases hicUnderflow s <;> cases h : s.io.hbie <;> simp [h]

@[simp] theorem hintCount_freeIdx (s : State) : (hintCount s).freeIdx = s.freeIdx := by
  unfold hintCount; cases hicUnderflow s <;> cases h : s.io.hbie <;> simp [h]

theorem hintCount_latch (s : State) :
    (hintCount s).latch = { s.latch with hic := if hicUnderflow s then s.io.hic else s.latch.hic - 1 } := by
  unfold hintCount; cases hicUnderflow s <;> cases h : s.io.hbie <;> simp [h]

theorem hintCount_irq (s : State) :
    (hintCount s).irq = if hicUnderflow s && s.io.hbie then ⟨true, s.irq.vblank, s.irq.apuInt⟩ else s.irq := by
  unfold hintCount; cases hicUnderflow s <;> cases h : s.io.hbie <;> simp [h]

theorem hintCount_log (s : State) :
    (hintCount s).log = if hicUnderflow s && s.io.hbie then .cpuRaise .hblank :: s.log else s.log := by
  unfold hintCount; cases hicUnderflow s <;> cases h : s.io.hbie <;> simp [h]

@[simp] theorem doHint_io (s : State) : (doHint s).io = s.io := by
  simp [doHint]

@[simp] theorem doHint_time (s : State) : (doHint s).time = s.time := by
  simp [doHint]

@[simp] theorem doHint_vramMode (s : State) : (doHint s).vramMode = s.vramMode := by
  simp [doHint]

@[simp] theorem doHint_output (s : State) : (doHint s).output = s.output := by
  simp [doHint]

@[simp] theorem doHint_stores (s : State) : (doHint s).stores = s.stores := by
  simp [doHint]

@[simp] theorem doHint_outbuf (s : State) : (doHint s).outbuf = s.outbuf := by
  simp [doHint]

@[simp] theorem doHint_powered (s : State) : (doHint s).powered = s.powered := by
  simp [doHint]

@[simp] theorem doHint_seen (s : State) : (doHint s).seen = s.seen := by
  simp [doHint]

@[simp] theorem doHint_saw (s : State) : (doHint s).saw = s.saw := by
  simp [doHint]

@[simp] theorem doHint_dbgRdata (s : State) : (doHint s).dbgRdata = s.dbgRdata := by
  simp [doHint]

@[simp] theorem doHint_schedule (s : State) : (doHint s).schedule = s.schedule := by
  simp [doHint]

@[simp] theorem doHint_freeIdx (s : State) : (doHint s).freeIdx = s.freeIdx := by
  simp [doHint]

theorem doHint_latch (s : State) :
    (doHint s).latch = { s.latch with hic := if hicUnderflow s then s.io.hic else s.latch.hic - 1 } := by
  simp [doHint, hintCount_latch]

theorem doHint_irq (s : State) :
    (doHint s).irq = if hicUnderflow s && s.io.hbie then ⟨true, s.irq.vblank, s.irq.apuInt⟩ else s.irq := by
  simp [doHint, hintCount_irq]

theorem doHint_log (s : State) :
    (doHint s).log = if hicUnderflow s && s.io.hbie then .cpuRaise .hblank :: s.log else s.log := by
  simp [doHint, hintCount_log]

theorem doHint_seq (s : State) : (doHint s).seq = ⟨.tick, Config.lineTail, .endLine⟩ := by
  simp [doHint, Config.lineTail]

theorem doHint_clock (s : State) :
    (doHint s).clock = ⟨addCounter s.clock.hcounter 430, s.clock.hdot, s.clock.vcounter, s.clock.field⟩ := by
  simp [doHint, Config.lineTail]

@[simp] theorem screenHeight_doHint (s : State) : screenHeight (doHint s) = screenHeight s := by
  simp [screenHeight, doHint_latch]

@[simp] theorem pixelWidth_doHint (s : State) : pixelWidth (doHint s) = pixelWidth s := by
  simp [pixelWidth, doHint_latch]

@[simp] theorem activeWidth_doHint (s : State) : activeWidth (doHint s) = activeWidth s := by
  simp [activeWidth]

@[simp] theorem frameHeight_doHint (s : State) : frameHeight (doHint s) = frameHeight s := by
  simp [frameHeight, doHint_latch, doHint_clock]

@[simp] theorem activeLine_doHint (s : State) : activeLine (doHint s) = activeLine s := by
  simp [activeLine, doHint_clock]

/-! ### `DOT` (R152) -/

theorem pixelWidth_pos (s : State) : 0 < pixelWidth s := by
  unfold pixelWidth pixelWidthOf pwWide pwNarrow; split <;> omega

theorem pixelWidth_le (s : State) : pixelWidth s ≤ 5 := by
  unfold pixelWidth pixelWidthOf pwWide pwNarrow; split <;> omega

@[simp] theorem pixelWidth_clocks (s : State) : (BitVec.ofNat 11 (pixelWidth s)).toNat = pixelWidth s := by
  have := pixelWidth_le s
  rw [BitVec.toNat_ofNat, Nat.mod_eq_of_lt (by omega)]

@[simp] theorem doDot_latch (s : State) : (doDot s).latch = s.latch := by
  unfold doDot; split <;> rfl

@[simp] theorem doDot_io (s : State) : (doDot s).io = s.io := by
  unfold doDot; split <;> rfl

@[simp] theorem doDot_irq (s : State) : (doDot s).irq = s.irq := by
  unfold doDot; split <;> rfl

@[simp] theorem doDot_time (s : State) : (doDot s).time = s.time := by
  unfold doDot; split <;> rfl

@[simp] theorem doDot_vramMode (s : State) : (doDot s).vramMode = s.vramMode := by
  unfold doDot; split <;> rfl

@[simp] theorem doDot_output (s : State) : (doDot s).output = s.output := by
  unfold doDot; split <;> rfl

@[simp] theorem doDot_powered (s : State) : (doDot s).powered = s.powered := by
  unfold doDot; split <;> rfl

@[simp] theorem doDot_seen (s : State) : (doDot s).seen = s.seen := by
  unfold doDot; split <;> rfl

@[simp] theorem doDot_saw (s : State) : (doDot s).saw = s.saw := by
  unfold doDot; split <;> rfl

@[simp] theorem doDot_dbgRdata (s : State) : (doDot s).dbgRdata = s.dbgRdata := by
  unfold doDot; split <;> rfl

@[simp] theorem doDot_schedule (s : State) : (doDot s).schedule = s.schedule := by
  unfold doDot; split <;> rfl

@[simp] theorem doDot_freeIdx (s : State) : (doDot s).freeIdx = s.freeIdx := by
  unfold doDot; split <;> rfl

@[simp] theorem screenHeight_doDot (s : State) : screenHeight (doDot s) = screenHeight s := by
  unfold doDot; split <;> rfl

@[simp] theorem frameHeight_doDot (s : State) : frameHeight (doDot s) = frameHeight s := by
  unfold doDot; split <;> rfl

@[simp] theorem pixelWidth_doDot (s : State) : pixelWidth (doDot s) = pixelWidth s := by
  unfold doDot; split <;> rfl

@[simp] theorem activeWidth_doDot (s : State) : activeWidth (doDot s) = activeWidth s := by
  unfold doDot; split <;> rfl

@[simp] theorem activeLine_doDot (s : State) : activeLine (doDot s) = activeLine s := by
  unfold doDot; split <;> rfl

theorem doDot_log (s : State) :
    (doDot s).log = if s.clock.hcounter.toNat < 1280 then .renderRun :: s.log else s.log := by
  unfold doDot Config.lineActive; split <;> rfl

/-- The stores after `DOT`: the rendering collaborator's writes in a pass of the dot loop (R152, U10). -/
theorem doDot_stores (s : State) :
    (doDot s).stores =
      if s.clock.hcounter.toNat < 1280 then writeBytes (Config.renderStores (emit .renderRun s)) s.stores
      else s.stores := by
  unfold doDot Config.lineActive; split <;> rfl

theorem doDot_outbuf (s : State) :
    (doDot s).outbuf =
      if s.clock.hcounter.toNat < 1280 then writePixels (Config.renderPixels (emit .renderRun s)) s.outbuf
      else s.outbuf := by
  unfold doDot Config.lineActive; split <;> rfl

theorem dotPass_seq (s : State) :
    (dotPass s).seq = ⟨.tick, BitVec.ofNat 11 (pixelWidth s), .dot⟩ := by
  have h : 0 < (BitVec.ofNat 11 (pixelWidth s)).toNat := by
    rw [pixelWidth_clocks]; exact pixelWidth_pos s
  simp only [dotPass, enterStep_seq]
  congr 1
  exact if_pos h

theorem doDot_seq (s : State) :
    (doDot s).seq =
      if s.clock.hcounter.toNat < 1280 then ⟨.tick, BitVec.ofNat 11 (pixelWidth s), .dot⟩
      else ⟨.hint, s.seq.rem, s.seq.ret⟩ := by
  unfold doDot Config.lineActive
  split
  · exact dotPass_seq s
  · rfl

theorem doDot_clock (s : State) :
    (doDot s).clock =
      if s.clock.hcounter.toNat < 1280 then
        ⟨addCounter s.clock.hcounter (pixelWidth s), addCounter s.clock.hdot 1, s.clock.vcounter, s.clock.field⟩
      else s.clock := by
  unfold doDot Config.lineActive
  split
  · simp only [dotPass, enterStep_clock, renderCall_clock, emit_clock]
    congr 1
    exact congrArg (addCounter s.clock.hcounter) (pixelWidth_clocks s)
  · rfl

/-! ### `END` (R156 to R159) -/

@[simp] theorem endAdvance_io (s : State) : (endAdvance s).io = s.io := by
  unfold endAdvance; split <;> rfl

@[simp] theorem endAdvance_irq (s : State) : (endAdvance s).irq = s.irq := by
  unfold endAdvance; split <;> rfl

@[simp] theorem endAdvance_seq (s : State) : (endAdvance s).seq = s.seq := by
  unfold endAdvance; split <;> rfl

@[simp] theorem endAdvance_time (s : State) : (endAdvance s).time = s.time := by
  unfold endAdvance; split <;> rfl

@[simp] theorem endAdvance_vramMode (s : State) : (endAdvance s).vramMode = s.vramMode := by
  unfold endAdvance; split <;> rfl

@[simp] theorem endAdvance_output (s : State) : (endAdvance s).output = s.output := by
  unfold endAdvance; split <;> rfl

@[simp] theorem endAdvance_stores (s : State) : (endAdvance s).stores = s.stores := by
  unfold endAdvance; split <;> rfl

@[simp] theorem endAdvance_outbuf (s : State) : (endAdvance s).outbuf = s.outbuf := by
  unfold endAdvance; split <;> rfl

@[simp] theorem endAdvance_log (s : State) : (endAdvance s).log = s.log := by
  unfold endAdvance; split <;> rfl

@[simp] theorem endAdvance_powered (s : State) : (endAdvance s).powered = s.powered := by
  unfold endAdvance; split <;> rfl

@[simp] theorem endAdvance_seen (s : State) : (endAdvance s).seen = s.seen := by
  unfold endAdvance; split <;> rfl

@[simp] theorem endAdvance_saw (s : State) : (endAdvance s).saw = s.saw := by
  unfold endAdvance; split <;> rfl

@[simp] theorem endAdvance_dbgRdata (s : State) : (endAdvance s).dbgRdata = s.dbgRdata := by
  unfold endAdvance; split <;> rfl

@[simp] theorem endAdvance_schedule (s : State) : (endAdvance s).schedule = s.schedule := by
  unfold endAdvance; split <;> rfl

@[simp] theorem endAdvance_freeIdx (s : State) : (endAdvance s).freeIdx = s.freeIdx := by
  unfold endAdvance; split <;> rfl

@[simp] theorem doEnd_io (s : State) : (doEnd s).io = s.io := by
  simp [doEnd]

@[simp] theorem doEnd_irq (s : State) : (doEnd s).irq = s.irq := by
  simp [doEnd]

@[simp] theorem doEnd_time (s : State) : (doEnd s).time = s.time := by
  simp [doEnd]

@[simp] theorem doEnd_vramMode (s : State) : (doEnd s).vramMode = s.vramMode := by
  simp [doEnd]

@[simp] theorem doEnd_output (s : State) : (doEnd s).output = s.output := by
  simp [doEnd]

@[simp] theorem doEnd_stores (s : State) : (doEnd s).stores = s.stores := by
  simp [doEnd]

@[simp] theorem doEnd_outbuf (s : State) : (doEnd s).outbuf = s.outbuf := by
  simp [doEnd]

@[simp] theorem doEnd_log (s : State) : (doEnd s).log = s.log := by
  simp [doEnd]

@[simp] theorem doEnd_powered (s : State) : (doEnd s).powered = s.powered := by
  simp [doEnd]

@[simp] theorem doEnd_seen (s : State) : (doEnd s).seen = s.seen := by
  simp [doEnd]

@[simp] theorem doEnd_saw (s : State) : (doEnd s).saw = s.saw := by
  simp [doEnd]

@[simp] theorem doEnd_dbgRdata (s : State) : (doEnd s).dbgRdata = s.dbgRdata := by
  simp [doEnd]

@[simp] theorem doEnd_schedule (s : State) : (doEnd s).schedule = s.schedule := by
  simp [doEnd]

@[simp] theorem doEnd_freeIdx (s : State) : (doEnd s).freeIdx = s.freeIdx := by
  simp [doEnd]

theorem doEnd_seq (s : State) : (doEnd s).seq = ⟨.pre, s.seq.rem, s.seq.ret⟩ := by
  simp [doEnd]

theorem doEnd_clock (s : State) :
    (doEnd s).clock =
      if frameWraps s then ⟨0, 0, 0, !s.clock.field⟩
      else ⟨0, 0, BitVec.ofNat 16 (s.clock.vcounter.toNat + 1), s.clock.field⟩ := by
  have h : frameWraps (endCounters s) = frameWraps s := rfl
  simp only [doEnd, setPhase_clock, endWidth_clock, endAdvance, h]
  split <;> rfl

theorem doEnd_latch (s : State) :
    (doEnd s).latch =
      ⟨s.latch.hic, if frameWraps s then s.io.overscan else s.latch.overscan, s.io.displayWidth⟩ := by
  have h : frameWraps (endCounters s) = frameWraps s := rfl
  simp only [doEnd, setPhase_latch, endWidth_latch, endAdvance, h]
  split <;> simp

/-! ### One cooperating micro-operation: what it never touches (R66, R72, R198) -/

@[simp] theorem coopStep_vramMode (s : State) : (coopStep s).vramMode = s.vramMode := by
  unfold coopStep; split <;> simp

@[simp] theorem coopStep_output (s : State) : (coopStep s).output = s.output := by
  unfold coopStep; split <;> simp

@[simp] theorem coopStep_powered (s : State) : (coopStep s).powered = s.powered := by
  unfold coopStep; split <;> simp

@[simp] theorem coopStep_saw (s : State) : (coopStep s).saw = s.saw := by
  unfold coopStep; split <;> simp

@[simp] theorem coopStep_dbgRdata (s : State) : (coopStep s).dbgRdata = s.dbgRdata := by
  unfold coopStep; split <;> simp

@[simp] theorem coopStep_schedule (s : State) : (coopStep s).schedule = s.schedule := by
  unfold coopStep; split <;> simp

end Sys2Proof.Machine
end

