-- ==== Sys2Proof/Laws/Memory.lean ====
section
/-! SUPPORT. The laws of the list behind a store or the output buffer, of the two window accesses and of the collaborators'
writes: a read after a write, and that every write keeps the canonical form. -/

namespace Sys2Proof.Machine

/-! ### One cell -/

variable {w : Nat} (d : Nat → BitVec w)

theorem Cells_read_erase (m : List (Nat × BitVec w)) (a b : Nat) :
    Cells.read d (Cells.erase m a) b = if b = a then d a else Cells.read d m b := by
  induction m with
  | nil =>
    simp only [Cells.erase, List.filter, Cells.read]
    split <;> simp_all
  | cons c m ih =>
    obtain ⟨k, v⟩ := c
    simp only [Cells.erase] at ih ⊢
    by_cases hk : k = a
    · subst hk
      simp only [List.filter, bne_self_eq_false, ih, Cells.read]
      split <;> simp_all
    · have : (k != a) = true := by simpa using hk
      simp only [List.filter, this, Cells.read, ih]
      split <;> simp_all

theorem Cells_read_place (a : Nat) (v : BitVec w) (m : List (Nat × BitVec w)) (b : Nat) (h : ∀ c ∈ m, c.1 ≠ a) :
    Cells.read d (Cells.place a v m) b = if b = a then v else Cells.read d m b := by
  induction m with
  | nil => simp only [Cells.place, Cells.read]
  | cons c m ih =>
    obtain ⟨k, u⟩ := c
    have hk : k ≠ a := h (k, u) (by simp)
    have ih' := ih (fun c hc => h c (by simp [hc]))
    simp only [Cells.place]
    split
    · simp only [Cells.read]
    · simp only [Cells.read, ih']
      split <;> simp_all

theorem Cells_not_mem_erase (m : List (Nat × BitVec w)) (a : Nat) : ∀ c ∈ Cells.erase m a, c.1 ≠ a := by
  intro c hc
  simpa [Cells.erase] using (List.mem_filter.1 hc).2

/-- A read after a write, in any list. -/
theorem Cells_read_write (m : List (Nat × BitVec w)) (a : Nat) (v : BitVec w) (b : Nat) :
    Cells.read d (Cells.write d m a v) b = if b = a then v else Cells.read d m b := by
  unfold Cells.write
  by_cases hv : v = d a
  · rw [if_pos hv, Cells_read_erase, hv]
  · rw [if_neg hv, Cells_read_place _ _ _ _ _ (Cells_not_mem_erase m a), Cells_read_erase]
    split <;> rfl

/-! ### The canonical form -/

theorem Cells_wfFrom_mono (limit lo lo' : Nat) (m : List (Nat × BitVec w)) (h : lo' ≤ lo)
    (hm : Cells.wfFrom d limit lo m = true) : Cells.wfFrom d limit lo' m = true := by
  cases m with
  | nil => rfl
  | cons c m =>
    obtain ⟨a, v⟩ := c
    simp only [Cells.wfFrom, Bool.and_eq_true, decide_eq_true_eq] at hm ⊢
    exact ⟨⟨⟨by omega, hm.1.1.2⟩, hm.1.2⟩, hm.2⟩

theorem Cells_wfFrom_erase (limit : Nat) (m : List (Nat × BitVec w)) (a : Nat) :
    ∀ lo, Cells.wfFrom d limit lo m = true → Cells.wfFrom d limit lo (Cells.erase m a) = true := by
  induction m with
  | nil => intro lo _; rfl
  | cons c m ih =>
    obtain ⟨k, v⟩ := c
    intro lo h
    simp only [Cells.erase] at ih ⊢
    simp only [Cells.wfFrom, Bool.and_eq_true, decide_eq_true_eq] at h
    obtain ⟨⟨⟨h1, h2⟩, h3⟩, h4⟩ := h
    by_cases hk : k = a
    · have : (k != a) = false := by simpa using hk
      simp only [List.filter, this]
      exact Cells_wfFrom_mono _ _ _ _ _ (by omega) (ih _ h4)
    · have : (k != a) = true := by simpa using hk
      simp only [List.filter, this, Cells.wfFrom, Bool.and_eq_true, decide_eq_true_eq]
      exact ⟨⟨⟨h1, h2⟩, h3⟩, ih _ h4⟩

theorem Cells_wfFrom_place (limit a : Nat) (v : BitVec w) (ha : a < limit) (hv : v ≠ d a)
    (m : List (Nat × BitVec w)) :
    ∀ lo, lo ≤ a → (∀ c ∈ m, c.1 ≠ a) → Cells.wfFrom d limit lo m = true →
      Cells.wfFrom d limit lo (Cells.place a v m) = true := by
  induction m with
  | nil =>
    intro lo hlo _ _
    simpa [Cells.place, Cells.wfFrom, hlo, ha] using hv
  | cons c m ih =>
    obtain ⟨k, u⟩ := c
    intro lo hlo hne h
    have hk : k ≠ a := hne (k, u) (by simp)
    simp only [Cells.wfFrom, Bool.and_eq_true, decide_eq_true_eq] at h
    obtain ⟨⟨⟨h1, h2⟩, h3⟩, h4⟩ := h
    simp only [Cells.place]
    split
    · simp only [Cells.wfFrom, Bool.and_eq_true, decide_eq_true_eq]
      exact ⟨⟨⟨hlo, ha⟩, hv⟩, ⟨⟨by omega, h2⟩, h3⟩, h4⟩
    · simp only [Cells.wfFrom, Bool.and_eq_true, decide_eq_true_eq]
      exact ⟨⟨⟨h1, h2⟩, h3⟩, ih _ (by omega) (fun c hc => hne c (by simp [hc])) h4⟩

/-- Every write inside the limit keeps the canonical form. -/
theorem Cells_wf_write (limit : Nat) (m : List (Nat × BitVec w)) (a : Nat) (v : BitVec w) (ha : a < limit)
    (h : Cells.wfFrom d limit 0 m = true) : Cells.wfFrom d limit 0 (Cells.write d m a v) = true := by
  unfold Cells.write
  split
  · exact Cells_wfFrom_erase _ _ _ _ _ h
  · rename_i hv
    exact Cells_wfFrom_place _ _ _ _ ha hv _ _ (Nat.zero_le _) (Cells_not_mem_erase m a)
      (Cells_wfFrom_erase _ _ _ _ _ h)

/-! ### Bytes and pixels (R70) -/

theorem Memory_read_write (m : Memory) (a : Nat) (v : Byte) (b : Nat) :
    Memory.read (Memory.write m a v) b = if b = a then v else Memory.read m b :=
  Cells_read_write zeroByte m a v b

theorem Memory_wf_write (limit : Nat) (m : Memory) (a : Nat) (v : Byte) (ha : a < limit)
    (h : Memory.wf limit m = true) : Memory.wf limit (Memory.write m a v) = true :=
  Cells_wf_write zeroByte limit m a v ha h

theorem Pixels_read_write (p : Pixels) (i : Nat) (v : BitVec 32) (j : Nat) :
    Pixels.read (Pixels.write p i v) j = if j = i then v else Pixels.read p j :=
  Cells_read_write Config.unwrittenPixel p i v j

theorem Pixels_wf_write (p : Pixels) (i : Nat) (v : BitVec 32) (hi : i < bufCap) (h : p.wf = true) :
    (Pixels.write p i v).wf = true :=
  Cells_wf_write Config.unwrittenPixel bufCap p i v hi h

/-! ### Bytes and words (R67) -/

@[simp] theorem hiByte_append (h l : Byte) : hiByte (h ++ l) = h := by
  ext i hi
  simp only [hiByte, BitVec.getElem_extractLsb', BitVec.getLsbD_append]
  simp only [BitVec.getLsbD_eq_getElem, hi, show ¬ 8 + i < 8 by omega, if_false, Nat.add_sub_cancel_left]

@[simp] theorem loByte_append (h l : Byte) : loByte (h ++ l) = l := by
  ext i hi
  simp only [loByte, BitVec.getElem_extractLsb', BitVec.getLsbD_append, Nat.zero_add, hi, if_true,
    BitVec.getLsbD_eq_getElem]

theorem isEvenAddr_iff (addr : Word) : isEvenAddr addr = true ↔ addr.toNat % 2 = 0 := by
  simp [isEvenAddr, BitVec.getLsbD, Nat.testBit_zero]

theorem wordIndex_eq (addr : Word) : wordIndex addr = addr.toNat / 2 := by
  simp [wordIndex, BitVec.toNat_ushiftRight, Nat.shiftRight_eq_div_pow]

/-- A byte address is the high byte's address of its word when even, the low byte's when odd. -/
theorem byteAddr_eq (addr : Word) :
    addr.toNat = if isEvenAddr addr then 2 * wordIndex addr else 2 * wordIndex addr + 1 := by
  rw [wordIndex_eq]
  by_cases h : isEvenAddr addr = true
  · have := (isEvenAddr_iff addr).1 h
    rw [if_pos h]
    omega
  · have : ¬ addr.toNat % 2 = 0 := fun hh => h ((isEvenAddr_iff addr).2 hh)
    rw [if_neg h]
    omega

/-- The word access of R63 is the byte at the address. -/
theorem memRead_eq (st : Stores) (sp : Space) (addr : Word) :
    memRead st sp addr = if addr.toNat < Space.limit sp then Memory.read (st.get sp) addr.toNat else 0 := by
  unfold memRead
  by_cases h : Space.limit sp ≤ addr.toNat
  · rw [if_pos h, if_neg (by omega)]
  · have ha := byteAddr_eq addr
    rw [if_neg h, if_pos (show addr.toNat < Space.limit sp by omega)]
    cases he : isEvenAddr addr <;> rw [he] at ha <;> simp only [Bool.false_eq_true, if_true, if_false] at ha <;>
      simp [Memory.word, ha]

/-- Replacing one byte of a word writes that byte of the store and no other (R64). -/
theorem read_setWord_replaceByte (m : Memory) (addr : Word) (v : Byte) (b : Nat) :
    Memory.read
        (Memory.setWord m (wordIndex addr)
          (replaceByte (isEvenAddr addr) v (Memory.word m (wordIndex addr)))) b =
      if b = addr.toNat then v else Memory.read m b := by
  have ha := byteAddr_eq addr
  cases h : isEvenAddr addr <;> rw [h] at ha <;>
    simp only [Memory.setWord, Memory_read_write, replaceByte, Memory.word, hiByte_append, loByte_append, ha,
      Bool.false_eq_true, if_true, if_false] <;>
    by_cases h1 : b = 2 * wordIndex addr <;> by_cases h2 : b = 2 * wordIndex addr + 1 <;> simp [h1, h2]

theorem Stores_get_set (st : Stores) (sp sp' : Space) (m : Memory) :
    (st.set sp m).get sp' = if sp' = sp then m else st.get sp' := by
  cases sp <;> cases sp' <;> rfl

/-- What a window write leaves at every address of every window (R64, R174). -/
theorem memRead_memWrite (st : Stores) (sp : Space) (addr : Word) (v : Byte) (sp' : Space) (b : Word) :
    memRead (memWrite st sp addr v) sp' b =
      if addr.toNat < Space.limit sp ∧ sp' = sp ∧ b = addr then v else memRead st sp' b := by
  unfold memWrite
  by_cases h : Space.limit sp ≤ addr.toNat
  · rw [if_pos h, if_neg (by omega)]
  · rw [if_neg h, memRead_eq, memRead_eq, Stores_get_set]
    by_cases hs : sp' = sp
    · subst hs
      simp only [if_true, read_setWord_replaceByte, ← BitVec.toNat_inj, true_and]
      split <;> split <;> simp_all
    · simp [hs]

theorem memWrite_out_of_range (st : Stores) (sp : Space) (addr : Word) (v : Byte)
    (h : Space.limit sp ≤ addr.toNat) : memWrite st sp addr v = st := by
  simp [memWrite, h]

theorem Memory_wf_setWord (limit : Nat) (m : Memory) (k : Nat) (w : Word) (hk : 2 * k + 1 < limit)
    (h : Memory.wf limit m = true) : Memory.wf limit (Memory.setWord m k w) = true :=
  Memory_wf_write _ _ _ _ hk (Memory_wf_write _ _ _ _ (by omega) h)

/-- Every window write keeps the canonical form of the stores. -/
theorem Stores_wf_memWrite (st : Stores) (sp : Space) (addr : Word) (v : Byte) (h : st.wf = true) :
    (memWrite st sp addr v).wf = true := by
  unfold memWrite
  split
  · exact h
  · rename_i hl
    have hk : 2 * wordIndex addr + 1 < Space.limit sp := by
      have he : Space.limit sp % 2 = 0 := by cases sp <;> rfl
      rw [wordIndex_eq]
      omega
    simp only [Stores.wf, Bool.and_eq_true] at h ⊢
    obtain ⟨⟨h1, h2⟩, h3⟩ := h
    cases sp
    · exact ⟨⟨Memory_wf_setWord _ _ _ _ hk h1, h2⟩, h3⟩
    · exact ⟨⟨h1, Memory_wf_setWord _ _ _ _ hk h2⟩, h3⟩
    · exact ⟨⟨h1, h2⟩, Memory_wf_setWord _ _ _ _ hk h3⟩

/-! ### The collaborators' writes (U10) -/

/-- A byte that no write names reads as before. -/
theorem memRead_writeBytes (ws : List StoreWrite) (st : Stores) (sp : Space) (a : Word)
    (h : ∀ x ∈ ws, (x.1, x.2.1) ≠ (sp, a)) : memRead (writeBytes ws st) sp a = memRead st sp a := by
  induction ws generalizing st with
  | nil => rfl
  | cons x ws ih =>
    have hx := h x (by simp)
    show memRead (writeBytes ws (memWrite st x.1 x.2.1 x.2.2)) sp a = _
    rw [ih _ fun y hy => h y (by simp [hy]), memRead_memWrite, if_neg]
    rintro ⟨-, rfl, rfl⟩
    exact hx rfl

/-- A pixel that no write names reads as before. -/
theorem read_writePixels (ws : List PixelWrite) (p : Pixels) (j : Nat) (h : ∀ x ∈ ws, x.1 % bufCap ≠ j) :
    Pixels.read (writePixels ws p) j = Pixels.read p j := by
  induction ws generalizing p with
  | nil => rfl
  | cons x ws ih =>
    have hx := h x (by simp)
    show Pixels.read (writePixels ws (Pixels.write p (x.1 % bufCap) x.2)) j = _
    rw [ih _ fun y hy => h y (by simp [hy]), Pixels_read_write, if_neg (Ne.symm hx)]

theorem Stores_wf_writeBytes (ws : List StoreWrite) (st : Stores) (h : st.wf = true) :
    (writeBytes ws st).wf = true := by
  induction ws generalizing st with
  | nil => exact h
  | cons x ws ih => exact ih _ (Stores_wf_memWrite st x.1 x.2.1 x.2.2 h)

theorem bufCap_pos : 0 < bufCap := by
  simp only [bufCap, Config.margin]
  omega

theorem Pixels_wf_writePixels (ws : List PixelWrite) (p : Pixels) (h : p.wf = true) :
    (writePixels ws p).wf = true := by
  induction ws generalizing p with
  | nil => exact h
  | cons x ws ih => exact ih _ (Pixels_wf_write p _ x.2 (Nat.mod_lt _ bufCap_pos) h)

end Sys2Proof.Machine
end

