-- ==== Sys2Proof/Laws/PerInstr.lean ====
section
/-! SUPPORT. The statements made per operation: every operation is spelled by a word of its row of the table (R98, R100).
-/

namespace Sys2Proof.Laws.TableMatch

/-- The word an operation is written as has the width of its row and the row's fixed bits. -/
def Statement (i : Instr) : Prop := i.row.matches (encode i) = true

/-- A word matches a row of its width when masking its bits gives the row's pattern. -/
theorem cmd_matches (m : String) (w pat mask : BitVec 32) (h : w &&& mask = pat) :
    Row.matches ⟨m, 32, pat.toNat, mask.toNat⟩ (.cmd w) = true := by
  simp [Row.matches, ← h, BitVec.toNat_and]

theorem uop_matches (m : String) (w pat mask : BitVec 16) (h : w &&& mask = pat) :
    Row.matches ⟨m, 16, pat.toNat, mask.toNat⟩ (.uop w) = true := by
  simp [Row.matches, ← h, BitVec.toNat_and]

/-- Masking a command word masks its four fields. -/
theorem cmdWord_and (op sub op' sub' : BitVec 4) (a16 a16' : BitVec 16) (a8 a8' : BitVec 8) :
    cmdWord op sub a16 a8 &&& cmdWord op' sub' a16' a8' =
      cmdWord (op &&& op') (sub &&& sub') (a16 &&& a16') (a8 &&& a8') := by
  simp only [cmdWord, ← BitVec.and_append]

theorem uop_and (code code' : BitVec 4) (bit bit' : BitVec 1) (clocks clocks' : Clocks) :
    (code ++ bit ++ clocks) &&& (code' ++ bit' ++ clocks') = (code &&& code') ++ (bit &&& bit') ++ (clocks &&& clocks') := by
  simp only [← BitVec.and_append]

theorem power (reset : Bool) : Statement (.power reset) := by
  cases reset <;> rfl

theorem refresh (pref : Bool) : Statement (.refresh pref) := by
  cases pref <;> rfl

theorem dbgrd (sp : Space) (addr : Word) : Statement (.dbgrd sp addr) := by
  refine cmd_matches "DBGRD" _ (cmdWord 3 0 0 0) (cmdWord 0xF 0xC 0 0xFF) ?_
  rw [cmdWord_and]
  cases sp <;> simp [Space.code]

theorem dbgwr (sp : Space) (addr : Word) (data : Byte) : Statement (.dbgwr sp addr data) := by
  refine cmd_matches "DBGWR" _ (cmdWord 4 0 0 0) (cmdWord 0xF 0xC 0 0) ?_
  rw [cmdWord_and]
  cases sp <;> simp [Space.code]

theorem cfgwr (fld : CfgField) (val : Byte) : Statement (.cfgwr fld val) := by
  refine cmd_matches "CFGWR" _ (cmdWord 5 0 0 0) (cmdWord 0xF 0 0xFFFF 0) ?_
  rw [cmdWord_and]
  simp

theorem line : Statement .line := rfl

theorem run (n : BitVec 16) : Statement (.run n) := by
  refine cmd_matches "RUN" _ (cmdWord 7 0 0 0) (cmdWord 0xF 0xF 0 0xFF) ?_
  rw [cmdWord_and]
  simp

theorem pre : Statement .pre := rfl

theorem dot : Statement .dot := rfl

theorem hint : Statement .hint := rfl

theorem tick : Statement .tick := rfl

theorem sync : Statement .sync := rfl

theorem endLine : Statement .endLine := rfl

theorem step (clocks : Clocks) : Statement (.step clocks) := by
  refine uop_matches "STEP" _ (uopWord 8 0) ((0xF : BitVec 4) ++ (1 : BitVec 1) ++ (0 : Clocks)) ?_
  simp only [uopWord, uop_and]
  simp

theorem tail : Statement .tail := rfl

theorem blank : Statement .blank := rfl

end Sys2Proof.Laws.TableMatch
end

