-- ==== Sys2Proof/Laws/RunControl.lean ====
section
/-! SUPPORT. What run control can do, said once: the micro-operation it makes in each phase, that `LINE`, `RUN` and the
pseudo-operations are repeated `coopStep`s, and that what every `coopStep` keeps they keep. -/

namespace Sys2Proof.Machine

/-! ### One micro-operation with the siblings cooperating (R112), by phase -/

theorem coopStep_of_pre (s : State) (h : s.seq.ph = .pre) : coopStep s = doPre s := by
  simp [coopStep, h]

theorem coopStep_of_dot (s : State) (h : s.seq.ph = .dot) : coopStep s = doDot s := by
  simp [coopStep, h]

theorem coopStep_of_hint (s : State) (h : s.seq.ph = .hint) : coopStep s = doHint s := by
  simp [coopStep, h]

theorem coopStep_of_tick (s : State) (h : s.seq.ph = .tick) : coopStep s = doTick s := by
  simp [coopStep, h]

theorem coopStep_of_sync (s : State) (h : s.seq.ph = .sync) : coopStep s = passBarrier (cooperate s) := by
  simp [coopStep, h]

theorem coopStep_of_endLine (s : State) (h : s.seq.ph = .endLine) : coopStep s = doEnd s := by
  simp [coopStep, h]

/-! ### `LINE` (R155) -/

/-- What every micro-operation keeps, a bounded run to `PRE` keeps. -/
theorem runToPre_keeps (P : State → Prop) (hP : ∀ s, P s → P (coopStep s)) (k : Nat) (s : State) (h : P s) :
    P (runToPre k s) := by
  induction k generalizing s with
  | zero => exact h
  | succ k ih =>
    rw [runToPre]
    split
    · exact hP s h
    · exact ih _ (hP s h)

/-- A run to `PRE` with enough fuel is exactly the micro-operations up to the first that enters `PRE`. -/
theorem runToPre_eq_iterate (m k : Nat) (s : State) (hk : k ≤ m) (h1 : 1 ≤ k) (hp : (coopStep^[k] s).seq.ph = .pre)
    (hj : ∀ j, 1 ≤ j → j < k → (coopStep^[j] s).seq.ph ≠ .pre) : runToPre m s = coopStep^[k] s := by
  induction m generalizing k s with
  | zero => omega
  | succ m ih =>
    rw [runToPre]
    obtain rfl | hk1 := eq_or_ne k 1
    · rw [if_pos (show (coopStep s).seq.ph = .pre from hp), Function.iterate_one]
    · rw [if_neg (show ¬ (coopStep s).seq.ph = .pre from hj 1 le_rfl (by omega))]
      obtain ⟨k', rfl⟩ : ∃ k', k = k' + 1 := ⟨k - 1, by omega⟩
      rw [Function.iterate_succ_apply] at hp ⊢
      refine ih k' (coopStep s) (by omega) (by omega) hp fun j hj1 hj2 => ?_
      rw [← Function.iterate_succ_apply]
      exact hj (j + 1) (by omega) (by omega)

theorem doLine_keeps (P : State → Prop) (hP : ∀ s, P s → P (coopStep s)) (s : State) (h : P s) : P (doLine s) :=
  runToPre_keeps P hP lineFuel s h

/-! ### `RUN` (R136) -/

theorem runToTick_keeps (P : State → Prop) (hP : ∀ s, P s → P (coopStep s)) (k : Nat) (s : State) (h : P s) :
    P (runToTick k s) := by
  induction k generalizing s with
  | zero => exact h
  | succ k ih =>
    rw [runToTick]
    split
    · rename_i ht
      exact coopStep_of_tick s ht ▸ hP s h
    · exact ih _ (hP s h)

/-- What every micro-operation keeps, `RUN` keeps. -/
theorem runTicks_keeps (P : State → Prop) (hP : ∀ s, P s → P (coopStep s)) (n : Nat) (s : State) (h : P s) :
    P (runTicks n s) := by
  induction n generalizing s with
  | zero => exact h
  | succ n ih => exact ih _ (runToTick_keeps P hP tickFuel s h)

/-! ### The pseudo-operations (R111) -/

theorem exec_line_of_powered (s : State) (h : s.powered = true) : exec .line s = .next (doLine s) := by
  simp only [exec, execLine, whenPowered_of_powered _ _ h]

@[simp] theorem doLine_powered (s : State) : (doLine s).powered = s.powered :=
  doLine_keeps (fun t => t.powered = s.powered) (fun t h => by rw [coopStep_powered, h]) s rfl

@[simp] theorem doLine_iterate_powered (n : Nat) (s : State) : (doLine^[n] s).powered = s.powered := by
  induction n generalizing s with
  | zero => rfl
  | succ n ih => rw [Function.iterate_succ_apply, ih, doLine_powered]

/-- `LINES n` on a powered block is `n` lines. -/
theorem lines_of_powered (n : Nat) (s : State) (h : s.powered = true) : lines n s = .next (doLine^[n] s) := by
  induction n generalizing s with
  | zero => rfl
  | succ n ih =>
    show andThen (exec .line s) (lines n) = _
    rw [exec_line_of_powered s h]
    exact ih (doLine s) (by rw [doLine_powered, h])

/-- A run to the top of the frame is the lines up to the first that ends with `vcounter = 0`. -/
theorem runToTop_eq_lines (m k : Nat) (s : State) (hs : s.powered = true) (hk : k < m)
    (h0 : (doLine^[k + 1] s).clock.vcounter = 0) (hj : ∀ j, j < k → (doLine^[j + 1] s).clock.vcounter ≠ 0) :
    runToTop m s = lines (k + 1) s := by
  rw [lines_of_powered _ _ hs]
  induction m generalizing k s with
  | zero => omega
  | succ m ih =>
    rw [runToTop, exec_line_of_powered s hs]
    cases k with
    | zero => exact if_pos h0
    | succ k =>
      show (if (doLine s).clock.vcounter = 0 then _ else _) = _
      rw [if_neg (show ¬ (doLine s).clock.vcounter = 0 from hj 0 (by omega))]
      exact ih k (doLine s) (by rw [doLine_powered, hs]) (by omega) h0 fun j hj' => hj (j + 1) (by omega)

/-- A run to line `v` is the lines up to the first state that stands there, if one within the fuel does. -/
theorem runToLine_eq_lines (v : Counter) (m : Nat) (s : State) (hs : s.powered = true) (r : Result) :
    runToLine v m s = some r ↔
      ∃ n, n ≤ m ∧ r = .next (doLine^[n] s) ∧ standsAtLine v (doLine^[n] s) = true ∧
        ∀ j, j < n → standsAtLine v (doLine^[j] s) = false := by
  induction m generalizing s with
  | zero =>
    simp only [runToLine, Nat.le_zero]
    constructor
    · intro h
      split at h
      · exact ⟨0, rfl, by simpa using h.symm, ‹_›, by omega⟩
      · cases h
    · rintro ⟨n, rfl, rfl, h, -⟩
      exact if_pos h
  | succ m ih =>
    rw [runToLine]
    by_cases hv : standsAtLine v s = true
    · rw [if_pos hv]
      constructor
      · intro h
        exact ⟨0, by omega, by simpa using h.symm, hv, by omega⟩
      · rintro ⟨n, -, rfl, -, hj⟩
        obtain rfl | hn := Nat.eq_zero_or_pos n
        · rfl
        · have := hj 0 hn
          simp [hv] at this
    · rw [if_neg hv, exec_line_of_powered s hs]
      show runToLine v m (doLine s) = some r ↔ _
      rw [ih (doLine s) (by rw [doLine_powered, hs])]
      constructor
      · rintro ⟨n, hn, rfl, h, hj⟩
        refine ⟨n + 1, by omega, rfl, h, fun j hj' => ?_⟩
        cases j with
        | zero => simpa using hv
        | succ j => exact hj j (by omega)
      · rintro ⟨n, hn, rfl, h, hj⟩
        cases n with
        | zero => exact absurd h hv
        | succ n => exact ⟨n, by omega, rfl, h, fun j hj' => hj (j + 1) (by omega)⟩

end Sys2Proof.Machine
end

