-- ==== Sys2Proof/Laws/Turns.lean ====
section
/-! SUPPORT. One step, by the turn it takes: what is at the head of the schedule, and what a turn that answers a next
state can be. -/

namespace Sys2Proof.Machine

/-- With nothing scheduled the engine steps. -/
theorem step_of_nil (s : State) (h : s.schedule = []) : step s = exec s.seq.ph.instr s := by
  have hp : popTurn s = s := by
    obtain ⟨_, _, _, _, _, _, _, _, _, _, _, _, _, _, _, _, _⟩ := s
    cases h
    rfl
  simp only [step, nextTurn, h, hp]
  rfl

/-- A step takes the head of the schedule off and runs it. -/
theorem step_cons (s : State) (t : Turn) (rest : List Turn) :
    step { s with schedule := t :: rest } = runTurn t { s with schedule := rest } := rfl

/-- The engine's turn, scheduled or not. -/
theorem step_engine (s : State) (h : nextTurn s = .engine) : step s = exec s.seq.ph.instr (popTurn s) := by
  rw [step, h]
  rfl

/-- A command's step that answers a next state is that of an operation of `HOST`, `MAINCPU` or run control. -/
theorem step_command (s t : State) (w : CmdWord) (h : nextTurn s = .command w) (hs : step s = .next t) :
    ∃ i, decodeCmd w = .ok i ∧ i.agent ≠ .engine ∧ exec i (popTurn s) = .next t := by
  rw [step, h] at hs
  cases hd : decodeCmd w with
  | error e => simp [runTurn, runDecoded, hd] at hs
  | ok i => exact ⟨i, rfl, decodeCmd_agent w i hd, by simpa [runTurn, runDecoded, hd] using hs⟩

/-- A turn of a sibling's domain that answers a next state leaves the engine as it was (R16, R17). -/
theorem runTurn_sibling_frame (u : Turn) (s t : State)
    (hu : (∃ n, u = .cpuTime n) ∨ (∃ n, u = .apuTime n) ∨ u = .siblingsPower ∨ u = .cpuLook ∨ u = .apuLook ∨
      (∃ sp a v, u = .decodeStore sp a v) ∨ ∃ b, u = .decodeVramMode b)
    (h : runTurn u s = .next t) :
    s.powered = true ∧ quiescent s = true ∧ t.clock = s.clock ∧ t.latch = s.latch ∧ t.io = s.io ∧ t.irq = s.irq ∧
      t.seq = s.seq ∧ t.time.vdp = s.time.vdp ∧ t.output = s.output ∧ t.outbuf = s.outbuf ∧ t.log = s.log ∧
      t.powered = s.powered ∧ t.seen = s.seen ∧ t.dbgRdata = s.dbgRdata ∧ t.schedule = s.schedule ∧
      t.freeIdx = s.freeIdx := by
  obtain ⟨n, rfl⟩ | ⟨n, rfl⟩ | rfl | rfl | rfl | ⟨sp, a, v, rfl⟩ | ⟨b, rfl⟩ := hu <;>
    simp only [runTurn, whenYielding_next] at h <;> obtain ⟨hp, hq, h⟩ := h <;> injection h with h <;> subst h <;>
    exact ⟨hp, hq, rfl, rfl, rfl, rfl, rfl, rfl, rfl, rfl, rfl, rfl, rfl, rfl, rfl, rfl⟩

end Sys2Proof.Machine
end

