-- ==== Sys2Proof/Tests/Slice0.lean ====
section
/-! SUPPORT. The model's own tests. Expected values are those of spec/95_test_vectors.md (V<n>) or written out by hand
from the rule named; then one witness for each statement that has hypotheses. -/

open Sys2Proof Sys2Proof.Machine Sys2Proof.Spec

namespace Sys2Proof.Tests

/-- The state of a next outcome. -/
def next? : Result → Option State
  | .next s => some s
  | .fault _ => none
  | .refused _ => none

/-- The reason of a refusal. -/
def refusal? : Result → Option Refusal
  | .next _ => none
  | .fault _ => none
  | .refused r => some r

/-- A powered block at the start of line 0, nothing traced. -/
def base : State := { State.reset with log := [] }

/-- The same at another phase, inside a `STEP` with `rem` clocks left. -/
def at' (ph : Phase) (rem : Clocks) (ret : Ret) : State := { base with seq := ⟨ph, rem, ret⟩ }

/-- The start of line `v`. -/
def lineAt (v : Counter) : State := { base with clock := { base.clock with vcounter := v } }

/-- The start of line `v` in the taller mode. -/
def tallLineAt (v : Counter) : State := { lineAt v with latch := { base.latch with overscan := true } }

/-- At `DOT` with these counters. -/
def dotAt (h d : Counter) : State := { at' .dot 0 .pre with clock := ⟨h, d, 0, false⟩ }

/-- At `HINT` with this countdown, reload value and enable. -/
def hintAt (hic reload : BitVec 8) (enable : Bool) : State :=
  { at' .hint 0 .dot with
    clock := ⟨1280, 256, 0, false⟩
    latch := { base.latch with hic := hic }
    io := { base.io with hic := reload, hbie := enable } }

/-- A block before its first `POWER`, its registers arbitrary. -/
def unpowered : State := { at' .tick 3 .dot with powered := false, vramMode := true, stores := ⟨[(5, 7)], [], []⟩ }

/-! ### Well-formedness (R99, R100, R102): each check refuses an ill-formed term -/

theorem test_wf_cfgwr_bit_field_above_1 : (Instr.cfgwr .hbie 2).wellFormed = false := by decide
theorem test_wf_cfgwr_displayWidth_above_1 : (Instr.cfgwr .displayWidth 0x80).wellFormed = false := by decide
theorem test_wf_cfgwr_hic_takes_8_bits : (Instr.cfgwr .hic 0xFF).wellFormed = true := by decide
theorem test_wf_run_zero : (Instr.run 0).wellFormed = false := by decide
theorem test_wf_step_430_is_tail : (Instr.step 430).wellFormed = false := by decide
theorem test_wf_step_1710_is_blank : (Instr.step 1710).wellFormed = false := by decide

/-! ### Decoding: a word written out from R98 or R100 for every constructor (V1 to V8) -/

theorem test_decode_power_hard : decodeCmd 0b0001_0000_0000000000000000_00000000 = .ok (.power false) := by decide
theorem test_decode_power_soft : decodeCmd 0b0001_0001_0000000000000000_00000000 = .ok (.power true) := by decide
theorem test_decode_refresh : decodeCmd 0b0010_0001_0000000000000000_00000000 = .ok (.refresh true) := by decide
theorem test_decode_dbgrd : decodeCmd 0b0011_0001_0000000001001111_00000000 = .ok (.dbgrd .vsram 79) := by decide
theorem test_decode_dbgwr : decodeCmd 0b0100_0010_0000000001111111_01011010 = .ok (.dbgwr .cram 127 0x5A) := by decide
theorem test_decode_cfgwr : decodeCmd 0b0101_0101_0000000000000000_00000001 = .ok (.cfgwr .displayWidth 1) := by decide
theorem test_decode_cfgwr_hic : decodeCmd 0b0101_0000_0000000000000000_00000010 = .ok (.cfgwr .hic 2) := by decide
theorem test_decode_line : decodeCmd 0b0110_0000_0000000000000000_00000000 = .ok .line := by decide
theorem test_decode_run : decodeCmd 0b0111_0000_0000010100000001_00000000 = .ok (.run 1281) := by decide
theorem test_decode_pre : decodeUop 0b0000_0_00000000000 = .ok .pre := by decide
theorem test_decode_dot : decodeUop 0b0001_0_00000000000 = .ok .dot := by decide
theorem test_decode_hint : decodeUop 0b0010_0_00000000000 = .ok .hint := by decide
theorem test_decode_tick : decodeUop 0b0011_0_00000000000 = .ok .tick := by decide
theorem test_decode_sync : decodeUop 0b0100_0_00000000000 = .ok .sync := by decide
theorem test_decode_end : decodeUop 0b0101_0_00000000000 = .ok .endLine := by decide
theorem test_decode_step : decodeUop 0b1000_0_00000000101 = .ok (.step 5) := by decide
theorem test_decode_tail : decodeUop 0b1000_0_00110101110 = .ok .tail := by decide
theorem test_decode_blank : decodeUop 0b1000_0_11010101110 = .ok .blank := by decide

/-- The refused words of V9. -/
theorem test_refused_commands :
    [0x00000000, 0x80000000, 0x12000000, 0x33000000, 0x56000000, 0x51000002, 0x70000000, 0x60000001].map decodeCmd =
      [.error .reservedOp, .error .reservedOp, .error .unusedField, .error .reservedSpace, .error .reservedField,
       .error .valueDoesNotFit, .error .runZero, .error .unusedField] := by decide

theorem test_refused_uops :
    [0x6000, 0x0001, 0x8800].map decodeUop = [.error .reservedCode, .error .strayClocks, .error .bit11Set] := by decide

/-- The `CFG` words of spec/95_test_vectors.md section 2.1. -/
theorem test_cfg_words :
    [0x0000, 0x0302, 0x0C00, 0x1000, 0x2000].map cfgUnpack =
      [some ⟨0, false, false, false, false, false⟩, some ⟨2, true, true, false, false, false⟩,
       some ⟨0, false, false, false, true, true⟩, some ⟨0, false, false, true, false, false⟩, none] := by decide

theorem test_table_word : decodeTableWord 16 0x81AE = some .tail ∧ decodeTableWord 32 0x31004F00 = some (.dbgrd .vsram 79) := by
  decide

/-- The first step after reset runs the word given to it. -/
theorem test_fetch_word_runs :
    (next? (step (State.reset.withFetchWord 16 0x3000))).map (fun t => (t.time.vdp, t.seq.ph)) = some (1, .sync) := by
  decide

/-! ### The engine's micro-operations -/

theorem test_pre_active_line : -- V10
    (next? (exec .pre { lineAt 5 with irq := ⟨true, false, false⟩ })).map (fun t => (t.trace, t.irq, t.seq.ph)) =
      some ([.lineHook 5, .cpuLower .hblank, .apuSetInt false], ⟨false, false, false⟩, .dot) := by decide

theorem test_pre_enters_blanking : -- V12
    (next? (exec .pre { lineAt 224 with io := { base.io with vbie := true } })).map
        (fun t => (t.trace, t.irq, t.io.vblankIRQ, t.clock.hcounter, t.seq)) =
      some ([.cpuLower .hblank, .apuSetInt false, .cpuRaise .vblank, .apuSetInt true], ⟨false, true, true⟩, true, 1710,
        ⟨.tick, 1710, .endLine⟩) := by decide

theorem test_hint_underflow : -- V21
    (next? (exec .hint (hintAt 0 9 true))).map (fun t => (t.trace, t.latch.hic, t.irq.hblank, t.clock.hcounter, t.seq)) =
      some ([.cpuRaise .hblank], 9, true, 1710, ⟨.tick, 430, .endLine⟩) := by decide

theorem test_hint_counts : -- V24
    (next? (exec .hint (hintAt 1 200 true))).map (fun t => (t.trace, t.latch.hic, t.irq.hblank)) =
      some ([], 0, false) := by decide

theorem test_dot_last_pass : -- V35
    (next? (exec .dot { dotAt 1276 319 with latch := { base.latch with displayWidth := true } })).map
        (fun t => (t.trace, t.clock.hdot, t.clock.hcounter, t.seq)) =
      some ([.renderRun], 320, 1280, ⟨.tick, 4, .dot⟩) := by decide

theorem test_dot_falls_through : -- V34
    next? (exec .dot (dotAt 1280 256)) = some { dotAt 1280 256 with seq := ⟨.hint, 0, .pre⟩ } := by decide

theorem test_step_entry : -- V80
    (next? (exec (.step 5) (dotAt 1275 255))).map (fun t => (t.clock.hcounter, t.seq)) =
      some (1280, ⟨.tick, 5, .dot⟩) := by decide

theorem test_step_zero : -- R130: STEP(0) passes straight to the return phase
    (next? (exec (.step 0) (hintAt 0 0 false))).map (fun t => (t.clock.hcounter, t.seq)) =
      some (1280, ⟨.endLine, 0, .endLine⟩) := by decide

theorem test_tail : -- V81
    (next? (exec .tail (hintAt 0 0 false))).map (fun t => (t.clock.hcounter, t.seq)) =
      some (1710, ⟨.tick, 430, .endLine⟩) := by decide

theorem test_blank : -- V82
    (next? (exec .blank base)).map (fun t => (t.clock.hcounter, t.seq)) = some (1710, ⟨.tick, 1710, .endLine⟩) := by decide

theorem test_tick : -- V83
    (next? (exec .tick { at' .tick 3 .dot with time := ⟨7, 0, 0⟩ })).map (fun t => (t.trace, t.time.vdp, t.seq)) =
      some ([.dmaRun], 8, ⟨.sync, 3, .dot⟩) := by decide

theorem barrierOpen_at_zero (s : State) (h : s.time.vdp = 0) : barrierOpen s = true := by
  simp [barrierOpen, caughtUp, h]

theorem test_sync_passes : -- V84
    (next? (exec .sync (at' .sync 3 .dot))).map (fun t => (t.trace, t.seq)) = some ([.synced], ⟨.tick, 2, .dot⟩) := by
  have h := barrierOpen_at_zero (at' .sync 3 .dot) rfl
  simp only [exec, execSync, doSync, h, if_true, whenPowered_of_powered _ _ (show (at' .sync 3 .dot).powered = true from rfl)]
  decide

/-- V86: a sibling behind holds the barrier. -/
theorem test_sync_holds :
    exec .sync { at' .sync 3 .dot with time := ⟨1, 0, 1⟩ } = .next { at' .sync 3 .dot with time := ⟨1, 0, 1⟩ } := by
  have h : barrierOpen { at' .sync 3 .dot with time := ⟨1, 0, 1⟩ } = false := by
    simp [barrierOpen, caughtUp, Config.clockDiv, fCpu]
  simp only [exec, execSync, doSync, h, Bool.false_eq_true, if_false]
  rfl

/-- The state before the `END` of line `v` with both mode bits changed in the configuration. -/
def endAt (v : Counter) : State :=
  { at' .endLine 0 .endLine with
    clock := ⟨1710, 256, v, false⟩, io := { base.io with overscan := true, displayWidth := true } }

theorem frameHeight_bounds (s : State) : 224 < frameHeight s ∧ frameHeight s ≤ 65535 := by
  have hs : 224 ≤ screenHeightOf s.latch.overscan ∧ screenHeightOf s.latch.overscan ≤ 240 := by
    cases s.latch.overscan <;> decide
  have := Nat.mod_lt (Config.frameLines s.clock.field s.latch.overscan)
    (show 0 < 65535 - screenHeightOf s.latch.overscan by omega)
  simp only [frameHeight, frameHeightOf]
  omega

/-- V42, V40: no wrap, the overscan latch keeps, the width latch follows. -/
theorem test_end_inside_frame :
    ∃ t, exec .endLine (endAt 100) = .next t ∧ t.clock = ⟨0, 0, 101, false⟩ ∧ t.latch = ⟨0, false, true⟩ ∧
      t.seq.ph = .pre := by
  have h : frameWraps (endAt 100) = false := by
    have h2 : (endAt 100).clock.vcounter.toNat = 100 := rfl
    have := (frameHeight_bounds (endAt 100)).1
    simp only [frameWraps, h2, decide_eq_false_iff_not]
    omega
  refine ⟨doEnd (endAt 100), rfl, ?_, ?_, ?_⟩
  · rw [doEnd_clock, h]; rfl
  · rw [doEnd_latch, h]; rfl
  · rw [doEnd_seq]

/-- V41: the wrap, on the last line a frame can have. -/
theorem test_end_wraps :
    ∃ t, exec .endLine (endAt 65534) = .next t ∧ t.clock = ⟨0, 0, 0, true⟩ ∧ t.latch = ⟨0, true, true⟩ ∧
      t.seq.ph = .pre := by
  have h : frameWraps (endAt 65534) = true := by
    have h2 : (endAt 65534).clock.vcounter.toNat = 65534 := rfl
    have := (frameHeight_bounds (endAt 65534)).2
    simp only [frameWraps, h2, decide_eq_true_eq]
    omega
  refine ⟨doEnd (endAt 65534), rfl, ?_, ?_, ?_⟩
  · rw [doEnd_clock, h]; rfl
  · rw [doEnd_latch, h]; rfl
  · rw [doEnd_seq]

theorem test_raise_not_observed_yet : -- R189: the line is up, and the siblings still observe it down
    (next? (exec .pre { lineAt 224 with io := { base.io with vbie := true } })).map
        (fun t => (t.irq.vblank, t.irq.apuInt, t.seen)) = some (true, true, quietViews) := by decide

/-- R77: a passed `SYNC` shows the siblings all of it together. -/
theorem test_raise_observed_after_sync :
    (next? (exec .sync { at' .sync 3 .endLine with irq := ⟨true, false, true⟩, clock := ⟨1710, 256, 7, true⟩ })).map
        (fun t => t.seen) = some ⟨⟨true, false, false, ⟨1710, 256, 7, true⟩⟩, true⟩ := by
  have h := barrierOpen_at_zero { at' .sync 3 .endLine with irq := ⟨true, false, true⟩, clock := ⟨1710, 256, 7, true⟩ } rfl
  simp only [exec, execSync, doSync, h, if_true, whenPowered_of_powered _ _ (show
    ({ at' .sync 3 .endLine with irq := ⟨true, false, true⟩, clock := ⟨1710, 256, 7, true⟩ } : State).powered = true
      from rfl)]
  decide

/-- A look copies what can be observed, not the line itself. -/
theorem test_look :
    (next? (step { base with schedule := [.cpuLook], irq := ⟨false, true, false⟩ })).map (fun t => t.saw.cpu.vblank) =
      some false := by decide

/-- R131, V89: at the first `SYNC` of a dot's `STEP(5)` the main CPU reads `hcounter` 5, not the 1710 of the last passed
`SYNC`; `vcounter` is still the one it saw there. -/
theorem test_look_mid_step :
    (next? (step { at' .sync 5 .dot with
      schedule := [.cpuLook], clock := ⟨5, 1, 1, false⟩, seen := ⟨⟨false, false, false, ⟨1710, 256, 0, false⟩⟩, false⟩ })).map
        (fun t => (t.saw.cpu.clock.hcounter, t.saw.cpu.clock.vcounter)) = some (5, 0) := by decide

/-- R77: at `PRE`, after `END` has cleared `hcounter`, the main CPU reads what the last passed `SYNC` showed it. -/
theorem test_look_at_pre :
    (next? (step { lineAt 1 with
      schedule := [.cpuLook], seen := ⟨⟨false, false, false, ⟨1710, 256, 0, false⟩⟩, false⟩ })).map
        (fun t => t.saw.cpu.clock.hcounter) = some 1710 := by decide

/-! ### Commands -/

theorem test_power_hard : -- V95
    (next? (exec (.power false)
        { at' .sync 1 .dot with
          clock := ⟨700, 140, 0, true⟩, irq := ⟨false, true, false⟩, stores := ⟨[(0, 0xFF)], [], []⟩,
          time := ⟨700, 9, 9⟩ })).map (fun t => (t.stores, t.clock, t.irq, t.seq, t.time.vdp)) =
      some (⟨[], [], []⟩, ⟨0, 0, 0, false⟩, ⟨false, false, false⟩, ⟨.pre, 0, .pre⟩, 0) := by decide

theorem test_power_soft : -- V96
    (next? (exec (.power true) { base with stores := ⟨[(0, 0xFF)], [], []⟩ })).map (fun t => (t.stores, t.trace)) =
      some (⟨[(0, 0xFF)], [], []⟩,
        [.powerHook .planeA, .powerHook .window, .powerHook .planeB, .powerHook .sprite, .powerHook .dma]) := by decide

theorem test_refresh_short_of_tall : -- V51
    (next? (exec (.refresh false) (tallLineAt 0))).map State.trace =
      some [.sinkRefresh 40960 5120 1280 Config.outHShort] := by rfl

theorem test_refresh_tall_of_short : -- V52
    (next? (exec (.refresh true) base)).map State.trace = some [.sinkRefresh 0 5120 1280 outHTall] := by rfl

theorem test_dbgrd_bytes : -- V68
    ([0, 1].map fun a => (next? (exec (.dbgrd .cram a) { base with stores := ⟨[], [], [(0, 0xBE), (1, 0xEF)]⟩ })).map
      State.dbgRdata) = [some 0xBE, some 0xEF] := by decide

theorem test_dbgrd_out_of_range : -- V65
    (next? (exec (.dbgrd .vsram 0xFFFF) { base with dbgRdata := 7 })).map State.dbgRdata = some 0 := by decide

theorem test_dbgwr_low_byte : -- V61
    (next? (exec (.dbgwr .vram 1 0x12) { base with stores := ⟨[(0, 0xFF)], [], []⟩ })).map
      (fun t => (t.stores, Memory.word t.stores.vram 0)) = some (⟨[(0, 0xFF), (1, 0x12)], [], []⟩, 0xFF12) := by decide

theorem test_dbgwr_no_clamping : -- V67
    next? (exec (.dbgwr .cram 128 0x77) base) = some base := by decide

theorem test_dbg_refused_at_tick : -- V69
    refusal? (exec (.dbgrd .vram 0) (at' .tick 3 .dot)) = some .notQuiescent := by decide

theorem test_cfgwr_flag_leaves_the_line : -- V91
    (next? (exec (.cfgwr .vblankIRQ 1) base)).map (fun t => (t.io.vblankIRQ, t.irq.vblank, t.trace)) =
      some (true, false, []) := by decide

theorem test_cfgwr_refused : -- V92
    refusal? (exec (.cfgwr .overscan 2) base) = some (.illegalWord .valueDoesNotFit) := by decide

theorem test_sink_keeps_to_the_window : -- R169: nothing beyond the last column, nothing while the engine runs
    sinkPixel false base 0 1280 = none ∧ sinkPixel true (dotAt 0 0) 0 0 = none := by
  constructor
  · simp [sinkPixel, Config.outWidth]
  · rfl

theorem test_lines_refused : -- R111, R197: `LINES 2` is two `LINE`s, and the first is refused before the first `POWER`
    refusal? (lines 2 unpowered) = some .notPowered := by decide

theorem test_runto_zero_lines : -- R111: `RUNTO 7` at the start of line 7 runs no `LINE`
    runTo 7 (lineAt 7) = some (.next (lineAt 7)) :=
  (runToLine_eq_lines 7 262144 (lineAt 7) rfl _).2 ⟨0, by omega, rfl, rfl, by omega⟩

theorem test_cfg_expansion : -- R111: `CFG 0x0302` is hic 2, hbie 1, vbie 1 and three zeros, in field order
    cfgCommands 0x0302 = some [.cfgwr .hic 2, .cfgwr .hbie 1, .cfgwr .vbie 1, .cfgwr .vblankIRQ 0, .cfgwr .overscan 0,
      .cfgwr .displayWidth 0] := by decide

theorem test_run_1 : -- V87
    (next? (exec (.run 1) base)).map (fun t => (t.seq, t.time.vdp, t.clock, t.trace)) =
      some (⟨.sync, 5, .dot⟩, 1, ⟨5, 1, 0, false⟩,
        [.lineHook 0, .cpuLower .hblank, .apuSetInt false, .cpuLower .vblank, .renderRun, .dmaRun]) := by decide

theorem test_run_6 : -- V88
    (next? (exec (.run 6) base)).map (fun t => (t.seq, t.time.vdp, t.clock.hcounter, t.clock.hdot)) =
      some (⟨.sync, 5, .dot⟩, 6, 10, 2) := by decide

theorem test_line_ends_at_pre : -- R155: from the `END` of a line, one micro-operation
    exec .line (endAt 100) = .next (doEnd (endAt 100)) := by
  have h : doLine (endAt 100) = doEnd (endAt 100) :=
    runToPre_eq_iterate lineFuel 1 (endAt 100) (by decide) le_rfl (by rw [Function.iterate_one]; exact doEnd_seq _ ▸ rfl)
      (by omega)
  rw [exec_line_of_powered _ rfl, h]

theorem test_instr_text : -- R110
    [Instr.power false, .refresh true, .dbgrd .vsram 79, .dbgwr .cram 127 0x5A, .cfgwr .hic 2, .run 1280].map instrText =
      ["POWER hard", "REFRESH tall", "DBGRD VSRAM, 79", "DBGWR CRAM, 127, 90", "CFGWR hic, 2", "RUN 1280"] := by
  decide

/-! ### Witnesses: a state and operands that meet the hypotheses of each statement -/

theorem witness_DecodeAfterEncode : (Instr.dbgwr .cram 0xFFFF 0xFF).wellFormed = true ∧ (Instr.step 2047).wellFormed = true := by
  decide

theorem witness_EncodeAfterDecode_WordsLieInTheirRows :
    decode (.cmd 0x4200FFFF) = .ok (.dbgwr .cram 0x00FF 0xFF) ∧ decode (.uop 0x81AE) = .ok .tail := by decide

theorem witness_RefusedWords : decodeCmd 0x33000000 = .error .reservedSpace ∧ decodeUop 0x8800 = .error .bit11Set := by
  decide

theorem witness_CfgWordRoundTrip : cfgUnpack 0x1FFF = some ⟨0xFF, true, true, true, true, true⟩ := by decide

theorem witness_StepRunsTheDecodedOperation :
    base.schedule = [] ∧ decodeCmd 0x60000000 = .ok .line ∧ decodeUop 0x3000 = .ok .tick ∧
      decodeTableWord 32 0x11000000 = some (.power true) := by decide

/-- Inside the first dot of line 0, at the barrier after clock `6 - rem`. -/
def syncAt (rem : Clocks) (vdp cpu apu : Nat) : State :=
  { at' .sync rem .dot with clock := ⟨5, 1, 0, false⟩, time := ⟨vdp, cpu, apu⟩ }

/-- At a barrier both siblings are behind. -/
def heldState : State := syncAt 5 1 0 0

theorem heldState_closed : barrierOpen heldState = false := by
  simp [barrierOpen, caughtUp, heldState, syncAt, Config.clockDiv, fCpu, fSys]

/-- One state for each row of R150: `PRE` on the last active and the first blanking line, `DOT` on both sides of 1280,
`HINT`, `TICK`, `SYNC` with two clocks left, with one left and held, `END`. -/
def phaseStates : List State :=
  [lineAt 223, lineAt 224, dotAt 1275 255, dotAt 1280 256, hintAt 0 0 false,
   { at' .tick 5 .dot with clock := ⟨5, 1, 0, false⟩ }, syncAt 2 0 0 0, syncAt 1 0 0 0, heldState, endAt 100]

theorem witness_PhaseTransitions : ∀ s ∈ phaseStates, s.SeqFits ∧ nextTurn s = .engine ∧ ∃ t, step s = .next t := by
  simp only [phaseStates, List.forall_mem_cons, List.not_mem_nil, false_implies, implies_true, and_true, State.SeqFits]
  exact ⟨⟨by decide, rfl, _, rfl⟩, ⟨by decide, rfl, _, rfl⟩, ⟨by decide, rfl, _, rfl⟩, ⟨by decide, rfl, _, rfl⟩,
    ⟨by decide, rfl, _, rfl⟩, ⟨by decide, rfl, _, rfl⟩, ⟨by decide, rfl, _, rfl⟩, ⟨by decide, rfl, _, rfl⟩,
    ⟨by decide, rfl, _, rfl⟩, ⟨by decide, rfl, _, rfl⟩⟩

theorem witness_PhaseTransitions_power : ∃ t, exec (.power true) heldState = .next t := ⟨_, rfl⟩

/-- A state whose next turn is a `CFGWR`, one whose next turn is a sibling's, and commands of `HOST` and `MAINCPU`. -/
def scheduled (t : Turn) : State := { base with schedule := [t] }

theorem witness_PhaseTransitions_others :
    (plainTurn (nextTurn (scheduled (.command 0x51000001))) ∧ nextTurn (scheduled (.command 0x51000001)) ≠ .engine ∧
        ∃ t, step (scheduled (.command 0x51000001)) = .next t) ∧
      (plainTurn (nextTurn (scheduled (.cpuTime 3))) ∧ nextTurn (scheduled (.cpuTime 3)) ≠ .engine ∧
        ∃ t, step (scheduled (.cpuTime 3)) = .next t) ∧
      ((Instr.refresh true).agent = .host ∧ (∀ reset, Instr.refresh true ≠ .power reset) ∧
        ∃ t, exec (.refresh true) base = .next t) := by
  refine ⟨⟨?_, by decide, _, rfl⟩, ⟨trivial, by decide, _, rfl⟩, rfl, nofun, _, rfl⟩
  intro i hi
  have h : decodeCmd 0x51000001 = .ok (.cfgwr .hbie 1) := by decide
  rw [h] at hi
  injection hi with hi
  subst hi
  exact ⟨by decide, nofun⟩

theorem witness_PhaseTransitions_barrier :
    barrierOpen (syncAt 2 0 0 0) = true ∧ barrierOpen (syncAt 1 0 0 0) = true ∧ barrierOpen heldState = false :=
  ⟨barrierOpen_at_zero _ rfl, barrierOpen_at_zero _ rfl, heldState_closed⟩

theorem witness_PowerAdmitted_HardAndSoftPowerDifferInTheStores :
    PowerAdmitted unpowered ∧ PowerAdmitted base ∧ PowerAdmitted heldState ∧ ¬ PowerAdmitted (dotAt 0 0) := by
  simp only [PowerAdmitted]
  decide

theorem witness_PowerAbandonsTheLine :
    heldState.powered = true ∧ heldState.seq.ph = .sync ∧ heldState.schedule = [] := by decide

theorem witness_OnlyPowerBeforeTheFirstPower : unpowered.powered = false ∧ ∀ reset, Instr.tick ≠ .power reset := by
  decide

theorem witness_ResetIsAHardPowerOn :
    unpowered.powered = false ∧ unpowered.log = [] ∧ unpowered.time.cpu = 0 ∧ unpowered.time.apu = 0 ∧
      unpowered.outbuf = [] ∧ unpowered.seen = quietViews ∧ unpowered.saw = quietViews ∧ unpowered.dbgRdata = 0 ∧ unpowered.schedule = [] ∧ unpowered.freeIdx = 0 := by decide

/-- A command is admitted at the start of a line and at a barrier, and not in between; each window has its last address
in range and, but for VRAM, a first one out of range. -/
theorem witness_CommandAdmitted :
    CommandAdmitted base ∧ CommandAdmitted heldState ∧ (dotAt 0 0).powered = true ∧ quiescent (dotAt 0 0) = false ∧
      (0xFFFF : Word).toNat < Space.limit .vram ∧ (79 : Word).toNat < Space.limit .vsram ∧
      Space.limit .vsram ≤ (80 : Word).toNat ∧ (127 : Word).toNat < Space.limit .cram ∧
      Space.limit .cram ≤ (128 : Word).toNat ∧ (126 : Word).toNat % 2 = 0 ∧ (127 : Word).toNat % 2 = 1 := by
  simp only [CommandAdmitted]
  decide

theorem witness_CommandsRefusedWhileTheEngineRuns :
    (dotAt 0 0).powered = true ∧ quiescent (dotAt 0 0) = false ∧ (Instr.power false).agent = .host ∧
      (Instr.cfgwr .hbie 1).agent = .mainCpu := by decide

theorem witness_StoresDoNotAffectTheEngine :
    (Instr.tick.agent = .engine ∧ ∃ t, exec .tick base = .next t) ∧
      (Instr.line.agent = .runControl ∧ ∃ t, exec .line base = .next t) :=
  ⟨⟨rfl, _, rfl⟩, rfl, _, exec_line_of_powered _ rfl⟩

theorem witness_CfgwrWritesOneField :
    base.powered = true ∧ quiescent base = true ∧ (1 : Byte).toNat ≤ 1 ∧ CfgField.overscan ≠ .hic ∧ 1 < (2 : Byte).toNat := by decide

theorem witness_CfgExpansionSetsTheSnapshot :
    CommandAdmitted heldState ∧ cfgUnpack 0x0302 = some ⟨2, true, true, false, false, false⟩ := by
  simp only [CommandAdmitted]
  decide

theorem witness_RunToFindsTheLine_CollaboratorCalls : base.powered = true ∧ Instr.tick.agent = .engine := ⟨rfl, rfl⟩

theorem witness_ModeWriteSparesTheLineInProgress :
    ∃ t u, exec .line (endAt 100) = .next t ∧
      exec .line { endAt 100 with io := { (endAt 100).io with overscan := false, displayWidth := false } } = .next u ∧
      t.clock.vcounter ≠ 0 := by
  obtain ⟨t, h, hc, -⟩ := test_end_inside_frame
  obtain rfl : doEnd (endAt 100) = t := by
    rw [show exec .endLine (endAt 100) = .next (doEnd (endAt 100)) from rfl] at h
    injection h
  exact ⟨_, _, test_line_ends_at_pre, exec_line_of_powered _ rfl, by rw [hc]; decide⟩

/-- `PRE` on line 0, on the last active line, on the first blanking line with the interrupt enabled, and after it. -/
theorem witness_PreUpdatesAndDispatches_PulsedLinesFallOnEveryLine :
    (lineAt 0).powered = true ∧ (223 : Counter).toNat < screenHeight (lineAt 223) ∧
      screenHeight (lineAt 224) = (224 : Counter).toNat ∧ (224 : Counter).toNat < screenHeight (tallLineAt 224) ∧
      base.clock.hcounter.toNat + 1710 < 65536 := by decide

theorem witness_HintCountsDown :
    (hintAt 0 9 true).latch.hic = 0 ∧ (hintAt 0 9 true).io.hbie = true ∧ (hintAt 1 9 true).latch.hic ≠ 0 ∧
      (hintAt 0 9 false).io.hbie = false ∧ (hintAt 0 9 true).clock.hcounter.toNat + 430 < 65536 := by decide

theorem witness_AtLineStart_LineBudgetAndEvents :
    AtLineStart base ∧ AtLineStart (lineAt 224) ∧ AtLineStart (tallLineAt 239) := by
  simp only [AtLineStart]
  decide

theorem witness_HblankPeriod : base.clock.vcounter = 0 ∧ 0 < screenHeight base ∧ 223 < screenHeight base := by decide

theorem witness_VblankAndAudioLevels_FrameLaw :
    AtLineStart base ∧ base.clock.vcounter = 0 ∧ 0 < frameHeight base ∧ 224 < frameHeight base :=
  ⟨by simp only [AtLineStart]; decide, rfl, by have := frameHeight_bounds base; omega, (frameHeight_bounds base).1⟩

theorem witness_VblankFlagMirrorsTheLine :
    base.io.vblankIRQ = base.irq.vblank ∧ (∀ val, Instr.pre ≠ .cfgwr .vblankIRQ val) ∧ ∃ t, exec .pre base = .next t :=
  ⟨rfl, nofun, _, rfl⟩

theorem witness_StepEntry_TailAndBlankEntry_TickAdvancesOneClock :
    base.powered = true ∧ (dotAt 1275 255).seq.ph = .dot ∧ base.seq.ph = .pre ∧ (hintAt 0 0 false).seq.ph = .hint ∧
      (dotAt 63488 0).clock.hcounter.toNat + (2047 : Clocks).toNat < 65536 := by decide

theorem witness_SyncPassesOrHolds :
    ((syncAt 1 0 0 0).time.vdp * 2 * fCpu ≤ (syncAt 1 0 0 0).time.cpu * fSys ∧
        (syncAt 1 0 0 0).time.vdp * 2 * fApu ≤ (syncAt 1 0 0 0).time.apu * fSys) ∧
      1 ≤ (syncAt 1 0 0 0).seq.rem.toNat ∧ ¬ heldState.time.vdp * 2 * fCpu ≤ heldState.time.cpu * fSys := by
  simp [syncAt, at', base, heldState, fCpu]

theorem witness_RunControlRefinesTheEngine :
    base.powered = true ∧ base.seq.ph ≠ .sync ∧ heldState.powered = true ∧ heldState.seq.ph = .sync := by decide

theorem witness_CompletedStepLaw :
    base.powered = true ∧ 1 ≤ (1 : Clocks).toNat ∧ (dotAt 65534 0).clock.hcounter.toNat + (1 : Clocks).toNat < 65536 ∧
      base.clock.hcounter.toNat + (1710 : Clocks).toNat < 65536 := by decide

/-- The engine alone, for as many steps as are taken. -/
def engineRun (s : State) : Nat → State
  | 0 => s
  | i + 1 => (next? (step (engineRun s i))).getD s

/-- `STEP(1)` at `DOT`, the siblings already two of their engine clocks ahead. -/
def aheadState : State := { dotAt 0 0 with time := ⟨0, 2 * fCpu, 2 * fApu⟩ }

theorem aheadState_open : barrierOpen (engineRun (enterStep 1 .dot aheadState) 1) = true := by
  have h1 := Nat.le_mul_of_pos_right (2 * fCpu) fSys_pos
  have h2 := Nat.le_mul_of_pos_right (2 * fApu) fSys_pos
  have h3 : (engineRun (enterStep 1 .dot aheadState) 1).time = ⟨1, 2 * fCpu, 2 * fApu⟩ := rfl
  simp only [barrierOpen, Bool.and_eq_true, caughtUp_iff, h3, Config.clockDiv]
  omega

theorem witness_CompletedStepInEveryRun :
    ∃ r : Nat → State, exec (.step 1) aheadState = .next (r 0) ∧ RunOf r 2 ∧
      (∀ i, i < 2 → plainTurn (nextTurn (r i)) ∧ (r i).stepping = true) ∧ (r 2).stepping = false := by
  have h : step (engineRun (enterStep 1 .dot aheadState) 1) =
      .next (passBarrier (popTurn (engineRun (enterStep 1 .dot aheadState) 1))) := by
    have hp : step (engineRun (enterStep 1 .dot aheadState) 1) =
        exec .sync (popTurn (engineRun (enterStep 1 .dot aheadState) 1)) := rfl
    have ho : barrierOpen (popTurn (engineRun (enterStep 1 .dot aheadState) 1)) = true := aheadState_open
    rw [hp, exec, execSync, whenPowered_of_powered _ _ rfl, doSync, if_pos ho]
  have h2 : engineRun (enterStep 1 .dot aheadState) 2 =
      passBarrier (popTurn (engineRun (enterStep 1 .dot aheadState) 1)) := by
    rw [engineRun, h]
    rfl
  refine ⟨engineRun (enterStep 1 .dot aheadState), rfl, fun i hi => ?_, fun i hi => ?_, ?_⟩
  · obtain rfl | rfl : i = 0 ∨ i = 1 := by omega
    · rfl
    · rw [h, ← h2]
  · obtain rfl | rfl : i = 0 ∨ i = 1 := by omega
    · exact ⟨trivial, rfl⟩
    · exact ⟨trivial, rfl⟩
  · rw [h2]
    rfl

theorem witness_RunStopsAtTheBarrier_LineRunsToTheNextPre :
    base.powered = true ∧ heldState.powered = true ∧ (1 : BitVec 16) ≠ 0 ∧ (65535 : BitVec 16) ≠ 0 := by decide

theorem witness_DotPassOrFallThrough :
    (dotAt 1279 255).clock.hcounter.toNat < 1280 ∧ 1280 ≤ (dotAt 1280 256).clock.hcounter.toNat ∧
      (dotAt 1279 255).clock.hdot.toNat + 1 < 65536 := by decide

/-- `END` just before and just at the frame wrap, whatever the frame height is. -/
theorem witness_EndAdvancesTheLine :
    (∃ s : State, s.powered = true ∧ s.clock.vcounter.toNat + 1 = frameHeight s) ∧
      ∃ s : State, s.powered = true ∧ s.clock.vcounter.toNat + 2 = frameHeight s := by
  have h := frameHeight_bounds (endAt 0)
  refine ⟨⟨endAt (BitVec.ofNat 16 (frameHeight (endAt 0) - 1)), rfl, ?_⟩,
    ⟨endAt (BitVec.ofNat 16 (frameHeight (endAt 0) - 2)), rfl, ?_⟩⟩
  · show (BitVec.ofNat 16 (frameHeight (endAt 0) - 1)).toNat + 1 = frameHeight (endAt 0)
    rw [BitVec.toNat_ofNat]
    omega
  · show (BitVec.ofNat 16 (frameHeight (endAt 0) - 2)).toNat + 2 = frameHeight (endAt 0)
    rw [BitVec.toNat_ofNat]
    omega

/-! The invariant, in the middle of an active line and at the start of line 1. -/

/-- Line 0 after its `PRE`. -/
def dotState : State := at' .dot 0 .pre

/-- The start of line 1. -/
def line1 : State := { lineAt 1 with time := ⟨1710, 0, 0⟩ }

theorem dotState_inv : dotState.Inv where
  powered := rfl
  line := by have := frameHeight_bounds dotState; show 0 < frameHeight dotState; omega
  seq := by simp only [State.SeqFits]; decide
  counters := by simp only [State.CountersFit]; decide
  levels := by simp only [State.LinesFit]; decide
  clock := by simp only [State.ClockFits]; decide
  cursor := rfl
  memory := ⟨by decide, rfl⟩
  seen := by simp only [State.SeenFits]; decide
  schedule := by intro t h; cases h

theorem line1_inv : line1.Inv where
  powered := rfl
  line := by have := frameHeight_bounds line1; show 1 < frameHeight line1; omega
  seq := by simp only [State.SeqFits]; decide
  counters := by simp only [State.CountersFit]; decide
  levels := by simp only [State.LinesFit]; decide
  clock := by simp only [State.ClockFits]; decide
  cursor := rfl
  memory := ⟨by decide, rfl⟩
  seen := by simp only [State.SeenFits]; decide
  schedule := by intro t h; cases h

theorem base_inv : base.Inv where
  powered := rfl
  line := by have := frameHeight_bounds base; show 0 < frameHeight base; omega
  seq := by simp only [State.SeqFits]; decide
  counters := by simp only [State.CountersFit]; decide
  levels := by simp only [State.LinesFit]; decide
  clock := by simp only [State.ClockFits]; decide
  cursor := rfl
  memory := ⟨by decide, rfl⟩
  seen := by simp only [State.SeenFits]; decide
  schedule := by intro t h; cases h

theorem witness_RenderPremise_StepKeepsTheInvariant_StepKeepsTheCountdown :
    ∃ t, dotState.Inv ∧ dotState.CountdownFits ∧ nextTurn dotState = .engine ∧ step dotState = .next t ∧
      t.trace = dotState.trace ++ [.renderRun] ∧ t.io.hic = dotState.io.hic :=
  ⟨_, dotState_inv, by simp only [State.CountdownFits]; decide, rfl, rfl, rfl, rfl⟩

/-- From the `PRE` of line 0, one step of the engine. -/
theorem witness_HblankPeriodOfEveryRun_RenderPremise :
    base.Inv ∧ base.seq.ph = .pre ∧ base.clock.vcounter = 0 ∧ RunOf (engineRun base) 2 ∧
      (∀ i, i ≤ 1 → (engineRun base i).io.hic = base.io.hic ∧ plainTurn (nextTurn (engineRun base i))) ∧
      ∀ i, 1 ≤ i → i ≤ 1 → (engineRun base i).seq.ph ≠ .pre := by
  refine ⟨base_inv, rfl, rfl, fun i hi => ?_, fun i hi => ?_, fun i h1 h2 => ?_⟩
  · obtain rfl | rfl : i = 0 ∨ i = 1 := by omega
    · rfl
    · rfl
  · obtain rfl | rfl : i = 0 ∨ i = 1 := by omega
    · exact ⟨rfl, trivial⟩
    · exact ⟨rfl, trivial⟩
  · obtain rfl : i = 1 := by omega
    decide

theorem witness_SiblingsSeeAtTheBarrier :
    (base.powered = true ∧ quiescent base = true ∧ base.seq.ph = .pre) ∧
      ((syncAt 2 0 0 0).powered = true ∧ quiescent (syncAt 2 0 0 0) = true ∧ (syncAt 2 0 0 0).seq.ph = .sync) ∧
      (nextTurn (syncAt 2 0 0 0) = .engine ∧ barrierOpen (syncAt 2 0 0 0) = true ∧ ∃ t, step (syncAt 2 0 0 0) = .next t) ∧
      ∃ t, step (scheduled (.cpuTime 3)) = .next t :=
  ⟨⟨rfl, rfl, rfl⟩, ⟨rfl, rfl, rfl⟩, ⟨rfl, barrierOpen_at_zero _ rfl, _, rfl⟩, _, rfl⟩

theorem witness_FlopsNeverBothHigh : ∃ t, dotState.Inv ∧ Host.Core.run core 2 dotState = .next t :=
  ⟨_, dotState_inv, rfl⟩

theorem witness_LinesStartOnTheBudget : ∃ t, line1.Inv ∧ Host.Core.run core 0 line1 = .next t ∧ t.seq.ph = .pre :=
  ⟨_, line1_inv, rfl, rfl⟩

theorem witness_RefreshSelectsTheWindow :
    (base.powered = true ∧ base.output = 20480 ∧ quiescent base = true ∧ base.latch.overscan = false) ∧
      ((tallLineAt 0).powered = true ∧ (tallLineAt 0).output = 20480 ∧ quiescent (tallLineAt 0) = true ∧
        (tallLineAt 0).latch.overscan = true) := by decide

theorem witness_RefreshWindowInsideTheBuffer :
    base.output = 20480 ∧ (∃ t, exec (.refresh true) base = .next t) ∧ 0 < refreshHeight true :=
  ⟨rfl, ⟨_, rfl⟩, by simp only [refreshHeight, outHTall, if_true]; omega⟩

theorem witness_RefreshIgnoresTheLiveConfiguration : ∃ t, exec (.refresh true) base = .next t := ⟨_, rfl⟩

theorem witness_EnvironmentTurns :
    base.powered = true ∧ quiescent base = true ∧ (dotAt 0 0).powered = true ∧ quiescent (dotAt 0 0) = false ∧
      (0xFFFF : Word).toNat < Space.limit .vram ∧ Space.limit .cram ≤ (128 : Word).toNat := by decide

theorem witness_StuckForEver_SiblingsLiftTheHold : heldState.Stuck ∧ heldState.holding = true := by
  have h : heldState.holding = true := by
    rw [State.holding, heldState_closed]
    rfl
  exact ⟨⟨h, rfl⟩, h⟩

theorem witness_WriteRights :
    (Instr.tick.agent = .engine ∧ ∃ t, exec .tick base = .next t) ∧
      (Instr.agent (.cfgwr .hbie 1) = .mainCpu ∧ ∃ t, exec (.cfgwr .hbie 1) base = .next t) ∧
      (Instr.agent (.dbgwr .vram 0 1) = .host ∧ (∀ reset, Instr.dbgwr .vram 0 1 ≠ .power reset) ∧
        ∃ t, exec (.dbgwr .vram 0 1) base = .next t) :=
  ⟨⟨rfl, _, rfl⟩, ⟨rfl, _, rfl⟩, rfl, nofun, _, rfl⟩

end Sys2Proof.Tests
end

section
/-! The debug write, by the words of a store: what a replaced word leaves in every word (R64, R67), what `memWrite` leaves
in every word of every store, and the statement about `DBGWR` (R172) put together from these. -/

namespace Sys2Proof.Machine

open Sys2Proof.Spec

/-! ### A word and its bytes (R67) -/

@[simp] theorem hiByte_append_loByte (w : Word) : hiByte w ++ loByte w = w :=
  (BitVec.extractLsb'_append_extractLsb'_eq_extractLsb' rfl).trans BitVec.extractLsb'_eq_self

/-- The two byte addresses of word `k` belong to no other word, so only word `k` is replaced. -/
theorem Memory_word_setWord (m : Memory) (k : Nat) (w : Word) (j : Nat) :
    Memory.word (Memory.setWord m k w) j = if j = k then w else Memory.word m j := by
  by_cases h : j = k
  · subst h
    simp [Memory.word, Memory.setWord, Memory_read_write]
  · have hhi : 2 * j ≠ 2 * k ∧ 2 * j ≠ 2 * k + 1 := by omega
    have hlo : 2 * j + 1 ≠ 2 * k ∧ 2 * j + 1 ≠ 2 * k + 1 := by omega
    simp only [Memory.word, Memory.setWord, Memory_read_write, hhi, hlo, h, if_false]

theorem replaceByte_of_even (addr : Word) (v : Byte) (w : Word) (h : addr.toNat % 2 = 0) :
    replaceByte (isEvenAddr addr) v w = v ++ loByte w := by
  rw [(isEvenAddr_iff addr).2 h, replaceByte, if_pos rfl]

theorem replaceByte_of_odd (addr : Word) (v : Byte) (w : Word) (h : addr.toNat % 2 = 1) :
    replaceByte (isEvenAddr addr) v w = hiByte w ++ v := by
  rw [replaceByte, if_neg]
  rw [isEvenAddr_iff]
  omega

/-! ### The window write (R64) -/

/-- The other two stores are never written, in range or out of it. -/
theorem get_memWrite_of_ne (st : Stores) (sp : Space) (addr : Word) (v : Byte) (sp' : Space) (h : sp' ≠ sp) :
    (memWrite st sp addr v).get sp' = st.get sp' := by
  unfold memWrite
  split
  · rfl
  · rw [Stores_get_set, if_neg h]

/-- Every word of the addressed store after a write in range. -/
theorem word_memWrite (st : Stores) (sp : Space) (addr : Word) (v : Byte) (h : addr.toNat < Space.limit sp) (k : Nat) :
    Memory.word ((memWrite st sp addr v).get sp) k =
      if k = addr.toNat / 2 then replaceByte (isEvenAddr addr) v (Memory.word (st.get sp) (addr.toNat / 2))
      else Memory.word (st.get sp) k := by
  rw [memWrite, if_neg (Nat.not_le.2 h), Stores_get_set, if_pos rfl, Memory_word_setWord, wordIndex_eq]

/-! ### `DBGWR` (R172) -/

theorem exec_dbgwr_of_admitted (sp : Space) (addr : Word) (v : Byte) (s : State) (h : CommandAdmitted s) :
    exec (.dbgwr sp addr v) s = .next { s with stores := memWrite s.stores sp addr v } :=
  whenQuiescent_of_quiescent s _ h.1 h.2

/-- Settles O16: the stores after an admitted `DBGWR` are those of `memWrite`, whose words `word_memWrite` gives. -/
theorem dbgwrReplacesOneByte : Obligations.DbgwrReplacesOneByte := by
  intro sp addr v s hs
  refine ⟨memWrite s.stores sp addr v, exec_dbgwr_of_admitted sp addr v s hs, memWrite_out_of_range _ _ _ _,
    fun hin => ⟨fun k hk => ?_, get_memWrite_of_ne _ _ _ _, fun heven => ?_, fun hodd => ?_⟩⟩
  · rw [word_memWrite _ _ _ _ hin, if_neg hk]
  · rw [word_memWrite _ _ _ _ hin, if_pos rfl, replaceByte_of_even _ _ _ heven, loByte]
  · rw [word_memWrite _ _ _ _ hin, if_pos rfl, replaceByte_of_odd _ _ _ hodd, hiByte]

end Sys2Proof.Machine
end

section
/-! `PRE`, as its output shows it: the events it emits, in order (R140), and the statement about the pulsed lines (R141). -/

namespace Sys2Proof.Machine

open Sys2Proof.Spec

/-! ### The detectors, as conditions on the line counter (R149) -/

theorem activeLine_iff (s : State) : activeLine s = true ↔ s.clock.vcounter.toNat < screenHeight s :=
  decide_eq_true_iff

theorem atTop_iff (s : State) : atTop s = true ↔ s.clock.vcounter.toNat = 0 :=
  beq_iff_eq.trans BitVec.toNat_inj.symm

theorem enteringBlank_iff (s : State) : enteringBlank s = true ↔ s.clock.vcounter.toNat = screenHeight s :=
  beq_iff_eq

/-! ### `PRE` (R140) -/

theorem exec_pre_of_powered (s : State) (h : s.powered = true) : exec .pre s = .next (doPre s) :=
  whenPowered_of_powered s _ h

/-- `doPre_log`, read oldest first. -/
theorem doPre_trace (s : State) : (doPre s).trace = s.trace ++ preEvents s := by
  have hvbie : (if s.io.vbie then [Event.cpuRaise .vblank] else []).reverse =
      if s.io.vbie then [Event.cpuRaise .vblank] else [] := by split <;> rfl
  simp only [State.trace, doPre_log, preEvents, ← activeLine_iff, ← atTop_iff, ← enteringBlank_iff]
  cases activeLine s <;> cases atTop s <;> cases enteringBlank s <;> simp [hvbie]

theorem doPre_hblank (s : State) : (doPre s).irq.hblank = false := by rw [doPre_irq]

/-- The audio signal after `PRE` is high on the line that enters blanking and on no other (R141, R143). -/
theorem doPre_apuInt (s : State) : (doPre s).irq.apuInt = enteringBlank s := by rw [doPre_irq]

/-- The two lowerings come first, or right after the line hook (R141). -/
theorem preEvents_eq_hook_pulses (s : State) :
    ∃ hook rest, preEvents s = hook ++ [.cpuLower .hblank, .apuSetInt false] ++ rest ∧
      (hook = [] ∨ hook = [.lineHook s.clock.vcounter]) :=
  ⟨_, _, List.append_assoc _ _ _, (ite_eq_or_eq _ _ _).symm⟩

/-- Settles O24: where the two lowerings stand among the events of `PRE`, and the two levels after it. -/
theorem pulsedLinesFallOnEveryLine : Obligations.PulsedLinesFallOnEveryLine := by
  intro s hs
  obtain ⟨hook, rest, hevents, hhook⟩ := preEvents_eq_hook_pulses s
  refine ⟨doPre s, hook, rest, exec_pre_of_powered s hs, doPre_hblank s, ?_, hhook, fun hv => ?_⟩
  · rw [doPre_trace, hevents]
    simp only [List.append_assoc]
  · rw [doPre_apuInt, Bool.eq_false_iff, ne_eq, enteringBlank_iff]
    exact hv

end Sys2Proof.Machine
end

section
/-! Who moves the sequencer, and where to: the table of R150 as one function of the state (the spec's 43_scanline.md), the
commands and the siblings' turns that leave the sequencer alone, and the statement put together from these. -/

namespace Sys2Proof.Machine

open Sys2Proof.Spec

/-! ### The engine's turn (R150) -/

/-- The table of R150: where the micro-operation that `seq.ph` names leaves the sequencer. -/
def nextSeq (s : State) : Seq :=
  match s.seq.ph with
  | .pre => if activeLine s then ⟨.dot, s.seq.rem, s.seq.ret⟩ else ⟨.tick, Config.lineBlank, .endLine⟩
  | .dot =>
    if s.clock.hcounter.toNat < 1280 then ⟨.tick, BitVec.ofNat 11 (pixelWidth s), .dot⟩
    else ⟨.hint, s.seq.rem, s.seq.ret⟩
  | .hint => ⟨.tick, Config.lineTail, .endLine⟩
  | .tick => ⟨.sync, s.seq.rem, s.seq.ret⟩
  | .sync =>
    if barrierOpen s then
      ⟨if 0 < (decRem s.seq.rem).toNat then .tick else s.seq.ret.phase, decRem s.seq.rem, s.seq.ret⟩
    else s.seq
  | .endLine => ⟨.pre, s.seq.rem, s.seq.ret⟩

theorem doSync_seq (s : State) :
    (doSync s).seq =
      if barrierOpen s then
        ⟨if 0 < (decRem s.seq.rem).toNat then .tick else s.seq.ret.phase, decRem s.seq.rem, s.seq.ret⟩
      else s.seq := by
  unfold doSync
  split
  · exact passBarrier_seq s
  · rfl

/-! An admitted operation answers the state its guard was given. -/

theorem eq_of_whenPowered_next {s t u : State} (h : whenPowered s (.next u) = .next t) : t = u := by
  obtain ⟨-, h⟩ := (whenPowered_next s t _).1 h
  injection h with h
  exact h.symm

theorem eq_of_whenQuiescent_next {s t u : State} (h : whenQuiescent s (.next u) = .next t) : t = u := by
  obtain ⟨-, -, h⟩ := (whenQuiescent_next s t _).1 h
  injection h with h
  exact h.symm

/-- The micro-operation of each phase moves the sequencer as the table says. -/
theorem exec_phase_instr_seq (s t : State) (h : exec s.seq.ph.instr s = .next t) : t.seq = nextSeq s := by
  unfold nextSeq
  cases hp : s.seq.ph <;> rw [hp] at h
  case pre => rw [eq_of_whenPowered_next h, doPre_seq]
  case dot => rw [eq_of_whenPowered_next h, doDot_seq]
  case hint => rw [eq_of_whenPowered_next h, doHint_seq]
  case tick => rw [eq_of_whenPowered_next h, doTick_seq]
  case sync => rw [eq_of_whenPowered_next h, doSync_seq]
  case endLine => rw [eq_of_whenPowered_next h, doEnd_seq]

/-- The engine's turn, scheduled or not: taking it off the schedule moves nothing the table reads. -/
theorem step_engine_seq (s t : State) (h : nextTurn s = .engine) (hs : step s = .next t) : t.seq = nextSeq s :=
  exec_phase_instr_seq (popTurn s) t (step_engine s h ▸ hs)

/-- A return phase other than the reset value is `DOT` or `END` (R42). -/
theorem phase_of_ret_ne_pre (r : Ret) (h : r ≠ .pre) : r.phase = .dot ∨ r.phase = .endLine := by
  cases r with
  | pre => exact absurd rfl h
  | dot => exact .inl rfl
  | endLine => exact .inr rfl

/-- A passed `SYNC` with more than one clock left starts the next clock (R133). -/
theorem nextSeq_of_clocks_left (s : State) (hp : s.seq.ph = .sync) (ho : barrierOpen s = true)
    (hr : 1 < s.seq.rem.toNat) : (nextSeq s).ph = .tick := by
  have hd : 0 < (decRem s.seq.rem).toNat := by
    rw [decRem_toNat _ hr.le]
    omega
  simp only [nextSeq, hp, ho, hd, if_true]

/-- A passed `SYNC` of the last clock goes to the return phase (R133). -/
theorem nextSeq_of_last_clock (s : State) (hp : s.seq.ph = .sync) (ho : barrierOpen s = true)
    (hr : s.seq.rem.toNat = 1) : (nextSeq s).ph = s.seq.ret.phase := by
  have hd : (decRem s.seq.rem).toNat = 0 := by rw [decRem_toNat _ hr.ge, hr]
  simp only [nextSeq, hp, ho, hd, if_true, lt_irrefl, if_false]

/-! ### Every other turn (R150) -/

/-- `POWER` sets the sequencer (R210). -/
theorem exec_power_seq (reset : Bool) (s t : State) (h : exec (.power reset) s = .next t) : t.seq = ⟨.pre, 0, .pre⟩ := by
  change execPower reset s = .next t at h
  unfold execPower at h
  split at h
  · cases h
  · injection h with h
    rw [← h, doPower_seq]

/-- A `HOST` command other than `POWER`, or a `CFGWR`, leaves the sequencer where it is. -/
theorem exec_command_seq (i : Instr) (s t : State) (hi : i.agent = .host ∨ i.agent = .mainCpu)
    (hpower : ∀ reset, i ≠ .power reset) (h : exec i s = .next t) : t.seq = s.seq := by
  cases i with
  | power reset => exact absurd rfl (hpower reset)
  | refresh pref => rw [eq_of_whenQuiescent_next h, emit_seq]
  | dbgrd sp addr => rw [eq_of_whenQuiescent_next h]
  | dbgwr sp addr data => rw [eq_of_whenQuiescent_next h]
  | cfgwr fld val =>
    obtain ⟨-, -, h⟩ := (whenQuiescent_next s t _).1 h
    split at h
    · cases h
      rfl
    · cases h
  | _ => simp [Instr.agent] at hi

/-- A plain command turn that answers a next state runs a command of `HOST` other than `POWER`, or a `CFGWR`. -/
theorem step_plain_command (s t : State) (w : CmdWord) (hn : nextTurn s = .command w) (hp : plainTurn (.command w))
    (hs : step s = .next t) :
    ∃ i, (i.agent = .host ∨ i.agent = .mainCpu) ∧ (∀ reset, i ≠ .power reset) ∧ exec i (popTurn s) = .next t := by
  obtain ⟨i, hd, hengine, hexec⟩ := step_command s t w hn hs
  obtain ⟨hrun, hpower⟩ := hp i hd
  refine ⟨i, ?_, hpower, hexec⟩
  cases ha : i.agent with
  | host => exact .inl rfl
  | mainCpu => exact .inr rfl
  | runControl => exact absurd ha hrun
  | engine => exact absurd ha hengine

/-- A turn that is neither the engine's nor a word is one of a sibling's domain, and leaves the sequencer where it is. -/
theorem runTurn_sibling_seq (u : Turn) (s t : State) (he : u ≠ .engine) (hc : ∀ w, u ≠ .command w)
    (hm : ∀ w, u ≠ .micro w) (h : runTurn u s = .next t) : t.seq = s.seq := by
  obtain ⟨-, -, -, -, -, -, hseq, -⟩ := runTurn_sibling_frame u s t (by cases u <;> simp_all) h
  exact hseq

theorem step_plain_seq (s t : State) (hp : plainTurn (nextTurn s)) (he : nextTurn s ≠ .engine) (hs : step s = .next t) :
    t.seq = s.seq := by
  by_cases hc : ∃ w, nextTurn s = .command w
  · obtain ⟨w, hn⟩ := hc
    obtain ⟨i, hi, hpower, hexec⟩ := step_plain_command s t w hn (hn ▸ hp) hs
    exact exec_command_seq i (popTurn s) t hi hpower hexec
  · have hm : ∀ w, nextTurn s ≠ .micro w := fun w hn => by rwa [hn] at hp
    exact runTurn_sibling_seq (nextTurn s) (popTurn s) t he (not_exists.1 hc) hm hs

/-- Settles O8: the engine's turn by the table `nextSeq`, one clause per row of R150, and every other turn by what it
leaves of the sequencer. -/
theorem phaseTransitions : Obligations.PhaseTransitions := by
  refine ⟨fun reset s t h => by rw [exec_power_seq reset s t h], exec_command_seq, step_plain_seq,
    fun s t hfit hn hs => ?_⟩
  rw [step_engine_seq s t hn hs]
  refine ⟨fun hp ha => ?_, fun hp ha => ?_, fun hp hh => ?_, fun hp hh => ?_, fun hp => ?_, fun hp => ?_,
    nextSeq_of_clocks_left s, fun hp ho hr => ?_, fun hp ho => ?_, fun hp => ?_⟩
  · simp [nextSeq, hp, ha]
  · simp [nextSeq, hp, ha, Config.lineBlank]
  · simp only [nextSeq, hp, hh, if_true, pixelWidth_clocks, and_self]
  · simp [nextSeq, hp, Nat.not_lt.2 hh]
  · simp [nextSeq, hp, Config.lineTail]
  · simp [nextSeq, hp]
  · obtain ⟨-, -, hret⟩ := hfit.1 (by simp [State.stepping, hp])
    have hlast := nextSeq_of_last_clock s hp ho hr
    exact ⟨hlast, hlast ▸ phase_of_ret_ne_pre _ hret⟩
  · simp [nextSeq, hp, ho]
  · simp [nextSeq, hp]

end Sys2Proof.Machine
end

section
/-! `POWER` and the stores (R211): an admitted `POWER` completes, a hard one and a soft one differ in the stores only,
and the source's scenario of one written VRAM byte. -/

namespace Sys2Proof.Machine

open Sys2Proof.Spec

/-! ### `POWER` completes (R210) -/

theorem exec_power_of_admitted (reset : Bool) (s : State) (h : PowerAdmitted s) :
    exec (.power reset) s = .next (doPower reset s) := by
  change execPower reset s = _
  rw [execPower, if_neg]
  rcases h with h | h <;> simp [h]

/-- Right after `POWER` the engine stands at `PRE`, so the next host command is admitted (R17, R210). -/
theorem commandAdmitted_doPower (reset : Bool) (s : State) : CommandAdmitted (doPower reset s) :=
  ⟨rfl, rfl⟩

/-- The stores do not enter the admission of a host command. -/
theorem powerAdmitted_with_stores {s : State} (h : CommandAdmitted s) (st : Stores) :
    PowerAdmitted { s with stores := st } :=
  .inr h.2

/-! ### Hard and soft (R211) -/

theorem doPower_hard_with_stores (s : State) :
    { doPower false s with stores := s.stores } = doPower true s := rfl

/-- Every byte of every window reads 0 after a hard `POWER`. -/
theorem memRead_doPower_hard (s : State) (sp : Space) (addr : Word) : memRead (doPower false s).stores sp addr = 0 := by
  have hempty : Memory.read ((doPower false s).stores.get sp) addr.toNat = 0 := by cases sp <;> rfl
  rw [memRead_eq, hempty, ite_self]

theorem memRead_doPower_soft (s : State) (sp : Space) (addr : Word) :
    memRead (doPower true s).stores sp addr = memRead s.stores sp addr := by
  rw [doPower_stores, if_pos rfl]

/-- A byte written in range into cleared stores reads back, and every other byte of its window still reads 0 (R64). -/
theorem memRead_memWrite_doPower_hard (s : State) (sp : Space) (addr : Word) (v : Byte) (b : Word)
    (h : addr.toNat < Space.limit sp) :
    memRead (memWrite (doPower false s).stores sp addr v) sp b = if b = addr then v else 0 := by
  simp only [memRead_memWrite, memRead_doPower_hard, h, true_and]

/-- Settles O10: each `POWER` of the scenario is admitted and is `doPower`, the written byte is that of
`memRead_memWrite_doPower_hard`, and the last part is `doPower_hard_with_stores`. -/
theorem hardAndSoftPowerDifferInTheStores : Obligations.HardAndSoftPowerDifferInTheStores := by
  intro s hs
  have hcleared := commandAdmitted_doPower false s
  have hagain := powerAdmitted_with_stores hcleared (memWrite (doPower false s).stores .vram 0 0xFF)
  have hread (b : Word) := memRead_memWrite_doPower_hard s .vram 0 0xFF b (by decide)
  have hkept : memRead (doPower true { doPower false s with stores := memWrite _ .vram 0 0xFF }).stores .vram 0 = 0xFF :=
    (memRead_doPower_soft _ .vram 0).trans (hread 0)
  constructor
  · exact ⟨_, _, _, _, exec_power_of_admitted false s hs, exec_dbgwr_of_admitted .vram 0 0xFF _ hcleared,
      hread 0, hread 1, exec_power_of_admitted false _ hagain, memRead_doPower_hard _ .vram 0,
      exec_power_of_admitted true _ hagain, hkept⟩
  · exact ⟨_, _, exec_power_of_admitted false s hs, exec_power_of_admitted true s hs, doPower_hard_with_stores s⟩

end Sys2Proof.Machine
end

section
/-! The two word formats, read and written: what each part of the decoder accepts (R97 to R102), every operation back from
its word and every word back from its operation, the refused words, the rows of the table and the `CFG` word (R96). -/

namespace Sys2Proof

open Sys2Proof.Machine

/-! ### From the operation to the word and back (D24, D25) -/

theorem decodeCmd_cmdWord (op sub : BitVec 4) (a16 : BitVec 16) (a8 : BitVec 8) :
    decodeCmd (cmdWord op sub a16 a8) = decodeCmdFields op sub a16 a8 := by
  simp only [decodeCmd, cmdOp_cmdWord, cmdSub_cmdWord, cmdA16_cmdWord, cmdA8_cmdWord]

theorem decodeUop_uopWord (code : BitVec 4) (clocks : Clocks) :
    decodeUop (uopWord code clocks) = decodeUopFields code 0 clocks := by
  simp only [decodeUop, uopCode_uopWord, uopBit11_uopWord, uopClocks_uopWord]

theorem decodeCmdFields_cfgwr (fld : CfgField) (val : Byte) (h : fld.fits val = true) :
    decodeCmdFields 5 fld.code 0 val = .ok (.cfgwr fld val) := by
  have hfield : CfgField.ofCode? fld.code.toNat = some fld := by cases fld <;> rfl
  simp [decodeCmdFields, decodeCfgwr, hfield, h]

theorem decodeCmdFields_run (n : BitVec 16) (h : n ≠ 0) : decodeCmdFields 7 0 n 0 = .ok (.run n) :=
  if_neg h

theorem decodeUopFields_step (clocks : Clocks) (h : stepSpelledByName clocks = false) :
    decodeUopFields 8 0 clocks = .ok (.step clocks) := by
  obtain ⟨htail, hblank⟩ : clocks ≠ 430 ∧ clocks ≠ 1710 := by simpa [stepSpelledByName] using h
  exact (if_neg htail).trans (if_neg hblank)

/-- Settles O1: the fields of the written word are those it was put together from, and the decoder of those fields answers
the operation, case by case. -/
theorem decodeAfterEncode : Obligations.DecodeAfterEncode := by
  intro i hi
  cases i with
  | power reset => exact (decodeCmd_cmdWord ..).trans (by cases reset <;> rfl)
  | refresh pref => exact (decodeCmd_cmdWord ..).trans (by cases pref <;> rfl)
  | dbgrd sp addr => exact (decodeCmd_cmdWord ..).trans (by cases sp <;> rfl)
  | dbgwr sp addr data => exact (decodeCmd_cmdWord ..).trans (by cases sp <;> rfl)
  | cfgwr fld val => exact (decodeCmd_cmdWord ..).trans (decodeCmdFields_cfgwr fld val hi)
  | line => exact (decodeCmd_cmdWord ..).trans rfl
  | run n => exact (decodeCmd_cmdWord ..).trans (decodeCmdFields_run n (by simpa [Instr.wellFormed] using hi))
  | step clocks =>
    exact (decodeUop_uopWord ..).trans (decodeUopFields_step clocks (by simpa [Instr.wellFormed] using hi))
  | _ => exact (decodeUop_uopWord ..).trans rfl

/-! ### What each part of the decoder accepts (R98 to R100) -/

theorem eq_oneBitSub (sub : BitVec 4) (b : Bool) (h : sub.toNat = b.toNat) : sub = oneBitSub b :=
  BitVec.eq_of_toNat_eq (by cases b <;> exact h)

theorem decodeOneBit_ok {mk : Bool → Instr} {sub : BitVec 4} {a16 : BitVec 16} {a8 : BitVec 8} {i : Instr}
    (h : decodeOneBit mk sub a16 a8 = .ok i) : ∃ b, i = mk b ∧ sub = oneBitSub b ∧ a16 = 0 ∧ a8 = 0 := by
  unfold decodeOneBit at h
  split at h
  · next hz =>
    obtain ⟨h16, h8⟩ := hz
    split at h
    · next hs => cases h; exact ⟨false, rfl, eq_oneBitSub sub false hs, h16, h8⟩
    · next hs => cases h; exact ⟨true, rfl, eq_oneBitSub sub true hs, h16, h8⟩
    · cases h
  · cases h

theorem decodeSpace_ok {sub : BitVec 4} {sp : Space} (h : decodeSpace sub = .ok sp) : sub = sp.code.setWidth 4 := by
  unfold decodeSpace at h
  split at h <;> cases h <;> next hs => exact BitVec.eq_of_toNat_eq hs

theorem decodeDbgrd_ok {sub : BitVec 4} {a16 : BitVec 16} {a8 : BitVec 8} {i : Instr}
    (h : decodeDbgrd sub a16 a8 = .ok i) : ∃ sp, i = .dbgrd sp a16 ∧ sub = sp.code.setWidth 4 ∧ a8 = 0 := by
  unfold decodeDbgrd at h
  split at h
  · next h8 =>
    split at h
    · next sp hs => cases h; exact ⟨sp, rfl, decodeSpace_ok hs, h8⟩
    · cases h
  · cases h

theorem decodeDbgwr_ok {sub : BitVec 4} {a16 : BitVec 16} {a8 : BitVec 8} {i : Instr}
    (h : decodeDbgwr sub a16 a8 = .ok i) : ∃ sp, i = .dbgwr sp a16 a8 ∧ sub = sp.code.setWidth 4 := by
  unfold decodeDbgwr at h
  split at h
  · next sp hs => cases h; exact ⟨sp, rfl, decodeSpace_ok hs⟩
  · cases h

theorem ofCode?_eq_some {sub : BitVec 4} {fld : CfgField} (h : CfgField.ofCode? sub.toNat = some fld) : sub = fld.code := by
  unfold CfgField.ofCode? at h
  split at h <;> cases h <;> next hs => exact BitVec.eq_of_toNat_eq hs

theorem decodeCfgwr_ok {sub : BitVec 4} {a16 : BitVec 16} {a8 : BitVec 8} {i : Instr}
    (h : decodeCfgwr sub a16 a8 = .ok i) :
    ∃ fld, i = .cfgwr fld a8 ∧ sub = fld.code ∧ fld.fits a8 = true ∧ a16 = 0 := by
  unfold decodeCfgwr at h
  split at h
  · next h16 =>
    split at h
    · cases h
    · next fld hs =>
      split at h
      · next hfits => cases h; exact ⟨fld, rfl, ofCode?_eq_some hs, hfits, h16⟩
      · cases h
  · cases h

theorem decodeLine_ok {sub : BitVec 4} {a16 : BitVec 16} {a8 : BitVec 8} {i : Instr}
    (h : decodeLine sub a16 a8 = .ok i) : i = .line ∧ sub = 0 ∧ a16 = 0 ∧ a8 = 0 := by
  unfold decodeLine at h
  split at h
  · next hz => cases h; exact ⟨rfl, hz⟩
  · cases h

theorem decodeRun_ok {sub : BitVec 4} {a16 : BitVec 16} {a8 : BitVec 8} {i : Instr}
    (h : decodeRun sub a16 a8 = .ok i) : i = .run a16 ∧ a16 ≠ 0 ∧ sub = 0 ∧ a8 = 0 := by
  unfold decodeRun at h
  split at h
  · next hz =>
    split at h
    · cases h
    · next h16 => cases h; exact ⟨rfl, h16, hz⟩
  · cases h

/-- The fields of an accepted command word are those its operation is written with (R98, D24). -/
theorem decodeCmdFields_ok {op sub : BitVec 4} {a16 : BitVec 16} {a8 : BitVec 8} {i : Instr}
    (h : decodeCmdFields op sub a16 a8 = .ok i) :
    i.wellFormed = true ∧ encode i = .cmd (cmdWord op sub a16 a8) := by
  unfold decodeCmdFields at h
  split at h
  case h_1 ho =>
    obtain ⟨b, rfl, rfl, rfl, rfl⟩ := decodeOneBit_ok h
    exact ⟨rfl, by rw [show op = 1 from BitVec.eq_of_toNat_eq ho]; rfl⟩
  case h_2 ho =>
    obtain ⟨b, rfl, rfl, rfl, rfl⟩ := decodeOneBit_ok h
    exact ⟨rfl, by rw [show op = 2 from BitVec.eq_of_toNat_eq ho]; rfl⟩
  case h_3 ho =>
    obtain ⟨sp, rfl, rfl, rfl⟩ := decodeDbgrd_ok h
    exact ⟨rfl, by rw [show op = 3 from BitVec.eq_of_toNat_eq ho]; rfl⟩
  case h_4 ho =>
    obtain ⟨sp, rfl, rfl⟩ := decodeDbgwr_ok h
    exact ⟨rfl, by rw [show op = 4 from BitVec.eq_of_toNat_eq ho]; rfl⟩
  case h_5 ho =>
    obtain ⟨fld, rfl, rfl, hfits, rfl⟩ := decodeCfgwr_ok h
    exact ⟨hfits, by rw [show op = 5 from BitVec.eq_of_toNat_eq ho]; rfl⟩
  case h_6 ho =>
    obtain ⟨rfl, rfl, rfl, rfl⟩ := decodeLine_ok h
    exact ⟨rfl, by rw [show op = 6 from BitVec.eq_of_toNat_eq ho]; rfl⟩
  case h_7 ho =>
    obtain ⟨rfl, hn, rfl, rfl⟩ := decodeRun_ok h
    exact ⟨by simpa [Instr.wellFormed] using hn, by rw [show op = 7 from BitVec.eq_of_toNat_eq ho]; rfl⟩
  case h_8 => cases h

theorem decodeNoClocks_ok {j i : Instr} {clocks : Clocks} (h : decodeNoClocks j clocks = .ok i) : i = j ∧ clocks = 0 := by
  unfold decodeNoClocks at h
  split at h
  · next hz => cases h; exact ⟨rfl, hz⟩
  · cases h

theorem decodeStep_ok {clocks : Clocks} {i : Instr} (h : decodeStep clocks = .ok i) :
    i.wellFormed = true ∧ encode i = .uop (uopWord 8 clocks) := by
  unfold decodeStep at h
  split at h
  · next ht => cases h; exact ⟨rfl, by rw [ht]; rfl⟩
  · next ht =>
    split at h
    · next hb => cases h; exact ⟨rfl, by rw [hb]; rfl⟩
    · next hb => cases h; exact ⟨by simpa [Instr.wellFormed, stepSpelledByName] using ⟨ht, hb⟩, rfl⟩

/-- The fields of an accepted micro-operation word are those its operation is written with (R100, D25). -/
theorem decodeUopFields_ok {code : BitVec 4} {bit11 : BitVec 1} {clocks : Clocks} {i : Instr}
    (h : decodeUopFields code bit11 clocks = .ok i) :
    bit11 = 0 ∧ i.wellFormed = true ∧ encode i = .uop (uopWord code clocks) := by
  unfold decodeUopFields at h
  split at h
  · next hbit =>
    refine ⟨hbit, ?_⟩
    split at h
    case h_7 hc =>
      rw [show code = 8 from BitVec.eq_of_toNat_eq hc]
      exact decodeStep_ok h
    case h_8 => cases h
    all_goals
      next hc =>
      obtain ⟨rfl, rfl⟩ := decodeNoClocks_ok h
      refine ⟨rfl, ?_⟩
      rw [← BitVec.setWidth_eq code, ← BitVec.ofNat_toNat, hc]
      rfl
  · cases h

/-- Settles O2: a decoded word is put together from its fields, and those are the ones the operation is written with. -/
theorem encodeAfterDecode : Obligations.EncodeAfterDecode := by
  intro c i h
  cases c with
  | cmd w =>
    obtain ⟨hwf, hw⟩ := decodeCmdFields_ok h
    exact ⟨hwf, hw.trans (by rw [cmdWord_of_fields])⟩
  | uop w =>
    obtain ⟨hbit, hwf, hw⟩ := decodeUopFields_ok h
    exact ⟨hwf, hw.trans (by rw [uopWord_of_fields w hbit])⟩

/-! ### What each part of the decoder refuses (R102, D27) -/

theorem decodeOneBit_fails (mk : Bool → Instr) (sub : BitVec 4) (a16 : BitVec 16) (a8 : BitVec 8) :
    (∃ e, decodeOneBit mk sub a16 a8 = .error e) ↔ 2 ≤ sub.toNat ∨ a16 ≠ 0 ∨ a8 ≠ 0 := by
  unfold decodeOneBit
  split
  · next hz =>
    split
    · next hs => simp [hs, hz]
    · next hs => simp [hs, hz]
    · next h0 h1 =>
      have : 2 ≤ sub.toNat := by grind
      simp [this]
  · next hz => simpa [not_and_or] using .inr (not_and_or.1 hz)

theorem decodeSpace_fails (sub : BitVec 4) : (∃ e, decodeSpace sub = .error e) ↔ 3 ≤ sub.toNat := by
  unfold decodeSpace
  split
  case h_5 h0 h1 h2 h3 =>
    have : 3 ≤ sub.toNat := by grind
    simp [this]
  all_goals next hs => simp [hs]

theorem decodeDbgwr_fails (sub : BitVec 4) (a16 : BitVec 16) (a8 : BitVec 8) :
    (∃ e, decodeDbgwr sub a16 a8 = .error e) ↔ 3 ≤ sub.toNat := by
  rw [← decodeSpace_fails, decodeDbgwr]
  cases decodeSpace sub <;> simp

theorem decodeDbgrd_fails (sub : BitVec 4) (a16 : BitVec 16) (a8 : BitVec 8) :
    (∃ e, decodeDbgrd sub a16 a8 = .error e) ↔ 3 ≤ sub.toNat ∨ a8 ≠ 0 := by
  rw [← decodeSpace_fails, decodeDbgrd]
  split
  · next h8 => cases decodeSpace sub <;> simp [h8]
  · next h8 => simpa using .inr h8

/-- A value fits `hic` always and a one-bit field when it is 0 or 1 (R99). -/
theorem fits_iff (fld : CfgField) (val : Byte) : fld.fits val = true ↔ fld = .hic ∨ val.toNat ≤ 1 := by
  cases fld <;> simp [CfgField.fits]

theorem decodeCfgwr_fails (sub : BitVec 4) (a16 : BitVec 16) (a8 : BitVec 8) :
    (∃ e, decodeCfgwr sub a16 a8 = .error e) ↔
      6 ≤ sub.toNat ∨ a16 ≠ 0 ∨ (1 ≤ sub.toNat ∧ 1 < a8.toNat) := by
  unfold decodeCfgwr
  split
  · next h16 =>
    split
    · next hf =>
      have : 6 ≤ sub.toNat := by
        unfold CfgField.ofCode? at hf
        split at hf <;> cases hf
        grind
      simp [this]
    · next fld hf =>
      obtain rfl := ofCode?_eq_some hf
      split
      · next hfits =>
        rw [fits_iff] at hfits
        cases fld <;> simp_all [CfgField.code]
      · next hfits =>
        rw [fits_iff] at hfits
        cases fld <;> simp_all [CfgField.code]
  · next h16 => simpa using .inr (.inl h16)

theorem decodeLine_fails (sub : BitVec 4) (a16 : BitVec 16) (a8 : BitVec 8) :
    (∃ e, decodeLine sub a16 a8 = .error e) ↔ sub ≠ 0 ∨ a16 ≠ 0 ∨ a8 ≠ 0 := by
  unfold decodeLine
  split
  · next hz => simp [hz]
  · next hz => simpa only [Except.error.injEq, exists_eq', true_iff, not_and_or] using hz

theorem decodeRun_fails (sub : BitVec 4) (a16 : BitVec 16) (a8 : BitVec 8) :
    (∃ e, decodeRun sub a16 a8 = .error e) ↔ sub ≠ 0 ∨ a8 ≠ 0 ∨ a16 = 0 := by
  unfold decodeRun
  split
  · next hz => split <;> simp_all
  · next hz =>
    simp only [Except.error.injEq, exists_eq', true_iff]
    tauto

theorem decodeCmd_fails (w : CmdWord) :
    (∃ e, decodeCmd w = .error e) ↔
      ((cmdOp w).toNat = 0 ∨ 8 ≤ (cmdOp w).toNat) ∨
      ((cmdOp w).toNat ∈ [1, 2] ∧ (2 ≤ (cmdSub w).toNat ∨ cmdA16 w ≠ 0 ∨ cmdA8 w ≠ 0)) ∨
      ((cmdOp w).toNat = 3 ∧ (3 ≤ (cmdSub w).toNat ∨ cmdA8 w ≠ 0)) ∨
      ((cmdOp w).toNat = 4 ∧ 3 ≤ (cmdSub w).toNat) ∨
      ((cmdOp w).toNat = 5 ∧
        (6 ≤ (cmdSub w).toNat ∨ cmdA16 w ≠ 0 ∨ (1 ≤ (cmdSub w).toNat ∧ 1 < (cmdA8 w).toNat))) ∨
      ((cmdOp w).toNat = 6 ∧ (cmdSub w ≠ 0 ∨ cmdA16 w ≠ 0 ∨ cmdA8 w ≠ 0)) ∨
      ((cmdOp w).toNat = 7 ∧ (cmdSub w ≠ 0 ∨ cmdA8 w ≠ 0 ∨ cmdA16 w = 0)) := by
  unfold decodeCmd decodeCmdFields
  split
  case h_1 ho => simp [ho, decodeOneBit_fails]
  case h_2 ho => simp [ho, decodeOneBit_fails]
  case h_3 ho => simp [ho, decodeDbgrd_fails]
  case h_4 ho => simp [ho, decodeDbgwr_fails]
  case h_5 ho => simp [ho, decodeCfgwr_fails]
  case h_6 ho => simp [ho, decodeLine_fails]
  case h_7 ho => simp [ho, decodeRun_fails]
  case h_8 =>
    have : (cmdOp w).toNat = 0 ∨ 8 ≤ (cmdOp w).toNat := by grind
    simp [this]

theorem decodeNoClocks_fails (i : Instr) (clocks : Clocks) :
    (∃ e, decodeNoClocks i clocks = .error e) ↔ clocks ≠ 0 := by
  unfold decodeNoClocks
  split
  · next hz => simp [hz]
  · next hz => simpa using hz

theorem decodeStep_succeeds (clocks : Clocks) : ¬ ∃ e, decodeStep clocks = .error e := by
  unfold decodeStep
  split
  · simp
  · split <;> simp

theorem uopBit11_eq_zero_iff (w : UopWord) : uopBit11 w = 0 ↔ w.getLsbD 11 = false := by
  simp [uopBit11, ← BitVec.toNat_inj, BitVec.getLsbD, Nat.testBit]

theorem decodeUop_fails (w : UopWord) :
    (∃ e, decodeUop w = .error e) ↔
      (uopCode w).toNat ∈ [6, 7, 9, 10, 11, 12, 13, 14, 15] ∨ w.getLsbD 11 = true ∨
        (uopClocks w ≠ 0 ∧ (uopCode w).toNat ≠ 8) := by
  unfold decodeUop decodeUopFields
  split
  · next hbit =>
    rw [(uopBit11_eq_zero_iff w).1 hbit]
    split
    case h_7 hc => simpa [hc] using decodeStep_succeeds (uopClocks w)
    case h_8 =>
      have hlt := (uopCode w).isLt
      have hcode : (uopCode w).toNat ∈ [6, 7, 9, 10, 11, 12, 13, 14, 15] := by
        simp only [List.mem_cons, List.not_mem_nil, or_false]
        grind
      exact iff_of_true ⟨_, rfl⟩ (.inl hcode)
    all_goals next hc => simp [hc, decodeNoClocks_fails]
  · next hbit =>
    have hw : w.getLsbD 11 = true := by simpa using mt (uopBit11_eq_zero_iff w).2 hbit
    exact iff_of_true ⟨_, rfl⟩ (.inr (.inl hw))

/-- Settles O3: the two lists are those of the decoders, and a step runs the word at the head of the schedule. -/
theorem refusedWords : Obligations.RefusedWords := by
  refine ⟨decodeCmd_fails, decodeUop_fails, fun s w e rest h => ?_, fun s w e rest h => ?_⟩
  · rw [step_cons, runTurn, h]
    rfl
  · rw [step_cons, runTurn, h]
    rfl

/-! ### The rows of the table (R98, R100) -/

/-- What it is for a word to lie in a row of its width. -/
theorem matches_pat {r : Row} {c : Code} (h : r.matches c = true) :
    (match c with | .cmd w => w.toNat | .uop w => w.toNat) &&& r.mask = r.pat := by
  cases c <;> exact beq_iff_eq.1 (Bool.and_eq_true_iff.1 h).2

/-- The `op` nibble of a row of `CMD` words is fixed, so a word in the row has it. -/
theorem cmdOp_of_matches {r : Row} (hr : r ∈ cmdRows) {w : CmdWord} (h : r.matches (.cmd w) = true) :
    (cmdOp w).toNat = r.pat / 2 ^ 28 := by
  have hmask : r.mask >>> 28 = 2 ^ 4 - 1 := (by decide : ∀ r ∈ cmdRows, r.mask >>> 28 = 2 ^ 4 - 1) r hr
  rw [← matches_pat h, ← Nat.shiftRight_eq_div_pow, Nat.shiftRight_and_distrib, hmask, Nat.and_two_pow_sub_one_eq_mod]
  simp [cmdOp]

/-- The rows of micro-operation words other than `STEP` have one word each. -/
theorem toNat_of_matches {r : Row} (hr : r ∈ uopRows) (hstep : r.mnemonic ≠ "STEP") {w : UopWord}
    (h : r.matches (.uop w) = true) : w.toNat = r.pat := by
  have hmask : r.mask = 2 ^ 16 - 1 :=
    (by decide : ∀ r ∈ uopRows, r.mnemonic ≠ "STEP" → r.mask = 2 ^ 16 - 1) r hr hstep
  rw [← matches_pat h, hmask, Nat.and_two_pow_sub_one_eq_mod, Nat.mod_eq_of_lt w.isLt]

/-- A row other than `STEP` is that of the operation its word decodes to (R100). -/
theorem eq_row_of_uop_matches {r : Row} (hr : r ∈ uopRows) (hstep : r.mnemonic ≠ "STEP") {w : UopWord} {i : Instr}
    (h : r.matches (.uop w) = true) (hd : decodeUop w = .ok i) : r = i.row := by
  have hrow : ∀ r ∈ uopRows, r.mnemonic ≠ "STEP" →
      (Except.toInstr? (decodeUop (BitVec.ofNat 16 r.pat))).map Instr.row = some r := by decide
  have hw : BitVec.ofNat 16 r.pat = w := by simp [← toNat_of_matches hr hstep h]
  have := hrow r hr hstep
  rw [hw, hd] at this
  exact (Option.some.inj this).symm

/-- A word in the row of `STEP` has code 8, which only `STEP`, `TAIL` and `BLANK` have (R100). -/
theorem of_step_row_matches {r : Row} (hr : r ∈ uopRows) (hstep : r.mnemonic = "STEP") {w : UopWord} {i : Instr}
    (h : r.matches (.uop w) = true) (hd : decodeUop w = .ok i) : r = i.row ∨ i = .tail ∨ i = .blank := by
  obtain rfl : r = ⟨"STEP", 16, 0x8000, 0xF800⟩ :=
    (by decide : ∀ r ∈ uopRows, r.mnemonic = "STEP" → r = ⟨"STEP", 16, 0x8000, 0xF800⟩) r hr hstep
  have hcode : (uopCode w).toNat = 8 := by
    have hshift := congrArg (· >>> 12) (matches_pat h)
    rw [Nat.shiftRight_and_distrib, show (0xF800 : Nat) >>> 12 = 2 ^ 4 - 1 from rfl,
      Nat.and_two_pow_sub_one_eq_mod] at hshift
    simpa [uopCode] using hshift
  simp only [decodeUop, decodeUopFields, hcode, decodeStep] at hd
  split at hd <;> [split at hd; cases hd]
  · cases hd; exact .inr (.inl rfl)
  · split at hd <;> cases hd
    · exact .inr (.inr rfl)
    · exact .inl rfl

/-- Every row that a decodable word lies in is the row of its operation, or that of `STEP` (R100). -/
theorem eq_row_of_matches {r : Row} (hr : r ∈ cmdRows ++ uopRows) {c : Code} {i : Instr} (hd : decode c = .ok i)
    (hi : i.row ∈ cmdRows ++ uopRows) (hrow : i.row.matches c = true) (h : r.matches c = true) :
    r = i.row ∨ (r.mnemonic = "STEP" ∧ (i = .tail ∨ i = .blank)) := by
  have hwidth : ∀ r ∈ cmdRows ++ uopRows, r.width = 32 ∧ r ∈ cmdRows ∨ r.width = 16 ∧ r ∈ uopRows := by decide
  cases c with
  | cmd w =>
    have hcmd : ∀ r ∈ cmdRows ++ uopRows, r.matches (.cmd w) = true → r ∈ cmdRows := fun r hr hm => by
      obtain ⟨-, hr⟩ | ⟨h16, -⟩ := hwidth r hr
      · exact hr
      · simp [Row.matches, h16] at hm
    have hop : r.pat / 2 ^ 28 = i.row.pat / 2 ^ 28 :=
      (cmdOp_of_matches (hcmd r hr h) h).symm.trans (cmdOp_of_matches (hcmd i.row hi hrow) hrow)
    exact .inl ((by decide : ∀ r ∈ cmdRows, ∀ r' ∈ cmdRows, r.pat / 2 ^ 28 = r'.pat / 2 ^ 28 → r = r')
      r (hcmd r hr h) i.row (hcmd i.row hi hrow) hop)
  | uop w =>
    have hr : r ∈ uopRows := by
      obtain ⟨h32, -⟩ | ⟨-, hr⟩ := hwidth r hr
      · simp [Row.matches, h32] at h
      · exact hr
    by_cases hstep : r.mnemonic = "STEP"
    · exact (of_step_row_matches hr hstep h hd).imp_right fun hi => ⟨hstep, hi⟩
    · exact .inl (eq_row_of_uop_matches hr hstep h hd)

theorem row_mem (i : Instr) : i.row ∈ cmdRows ++ uopRows := by
  cases i <;> simp [Instr.row, cmdRows, uopRows]

/-- The word of an operation lies in its row (`Laws.TableMatch`). -/
theorem row_matches_encode (i : Instr) : i.row.matches (encode i) = true := by
  cases i with
  | power reset => exact Laws.TableMatch.power reset
  | refresh pref => exact Laws.TableMatch.refresh pref
  | dbgrd sp addr => exact Laws.TableMatch.dbgrd sp addr
  | dbgwr sp addr data => exact Laws.TableMatch.dbgwr sp addr data
  | cfgwr fld val => exact Laws.TableMatch.cfgwr fld val
  | run n => exact Laws.TableMatch.run n
  | step clocks => exact Laws.TableMatch.step clocks
  | _ => rfl

/-- Settles O4: the word is the one its operation is written as, so it lies in that row, and `eq_row_of_matches` gives
every other row it lies in. -/
theorem wordsLieInTheirRows : Obligations.WordsLieInTheirRows := by
  intro c i h
  obtain ⟨-, hw⟩ := encodeAfterDecode c i h
  have hrow : i.row.matches c = true := hw ▸ row_matches_encode i
  exact ⟨row_mem i, hrow, fun r hr hm => eq_row_of_matches hr h (row_mem i) hrow hm⟩

/-- Settles O5: each word of the vectors, run through the decoder. -/
theorem vectorWordsDecode : Obligations.VectorWordsDecode := by
  unfold Obligations.VectorWordsDecode
  decide

/-! ### The `CFG` word (R96, D23) -/

theorem cfgReserved_iff (w : CfgWord) :
    w.extractLsb' 13 3 = 0 ↔ w.getLsbD 13 = false ∧ w.getLsbD 14 = false ∧ w.getLsbD 15 = false := by
  constructor
  · intro h
    have hbit (k : Nat) (hk : k < 3) : w.getLsbD (13 + k) = false := by
      simpa [hk] using congrArg (·.getLsbD k) h
    exact ⟨hbit 0 (by decide), hbit 1 (by decide), hbit 2 (by decide)⟩
  · rintro ⟨h13, h14, h15⟩
    ext k hk
    interval_cases k <;> simpa

/-- Bits 7:0 of the packed word are `hic` (R96). -/
theorem getLsbD_cfgPack_of_lt (io : Io) (n : Nat) (h : n < 8) : (cfgPack io).getLsbD n = io.hic.getLsbD n := by
  simp only [cfgPack, BitVec.getLsbD_append, h, if_true]

/-- Bits 15:8 of the packed word are the one-bit fields and the three reserved bits (R96). -/
theorem getLsbD_cfgPack (io : Io) :
    (cfgPack io).getLsbD 8 = io.hbie ∧ (cfgPack io).getLsbD 9 = io.vbie ∧ (cfgPack io).getLsbD 10 = io.overscan ∧
      (cfgPack io).getLsbD 11 = io.displayWidth ∧ (cfgPack io).getLsbD 12 = io.vblankIRQ ∧
      (cfgPack io).getLsbD 13 = false ∧ (cfgPack io).getLsbD 14 = false ∧ (cfgPack io).getLsbD 15 = false := by
  simp only [cfgPack, BitVec.getLsbD_append, BitVec.getLsbD_ofBool]
  simp

theorem extractLsb'_cfgPack (io : Io) : (cfgPack io).extractLsb' 0 8 = io.hic := by
  ext n hn
  simpa [hn] using getLsbD_cfgPack_of_lt io n hn

theorem cfgUnpack_cfgPack (io : Io) : cfgUnpack (cfgPack io) = some io := by
  obtain ⟨h8, h9, h10, h11, h12, hres⟩ := getLsbD_cfgPack io
  rw [cfgUnpack, if_pos ((cfgReserved_iff _).2 hres), extractLsb'_cfgPack, h8, h9, h10, h11, h12]

theorem cfgPack_of_unpack (w : CfgWord) (io : Io) (h : cfgUnpack w = some io) : cfgPack io = w := by
  unfold cfgUnpack at h
  split at h
  · next hres =>
    obtain ⟨b8, b9, b10, b11, b12, b13, b14, b15⟩ := getLsbD_cfgPack io
    obtain ⟨h13, h14, h15⟩ := (cfgReserved_iff w).1 hres
    cases h
    refine BitVec.eq_of_getLsbD_eq fun n hn => ?_
    obtain hlow | hhigh := lt_or_ge n 8
    · rw [getLsbD_cfgPack_of_lt _ n hlow]
      simp [hlow]
    · interval_cases n
      exacts [b8, b9, b10, b11, b12, b13.trans h13.symm, b14.trans h14.symm, b15.trans h15.symm]
  · cases h

theorem cfgUnpack_eq_none_iff (w : CfgWord) :
    cfgUnpack w = none ↔ (w.getLsbD 13 || w.getLsbD 14 || w.getLsbD 15) = true := by
  have hnone : cfgUnpack w = none ↔ ¬ w.extractLsb' 13 3 = 0 := by simp [cfgUnpack]
  rw [hnone, cfgReserved_iff]
  cases w.getLsbD 13 <;> cases w.getLsbD 14 <;> simp

/-- Settles O6: the bits of the packed word are those of `getLsbD_cfgPack`, and the reserved ones are tested first. -/
theorem cfgWordRoundTrip : Obligations.CfgWordRoundTrip := by
  refine ⟨fun io => ?_, cfgPack_of_unpack, cfgUnpack_eq_none_iff⟩
  obtain ⟨hhbie, hvbie, hoverscan, hwidth, hflag, -⟩ := getLsbD_cfgPack io
  exact ⟨cfgUnpack_cfgPack io, extractLsb'_cfgPack io, hhbie, hvbie, hoverscan, hwidth, hflag⟩

end Sys2Proof
end

section
/-! The invariant of every reachable state (`State.Inv`): what it says at each phase, that each micro-operation of the
engine keeps it, and from these that every step of every agent does. -/

namespace Sys2Proof.Machine

open Sys2Proof.Spec

/-! ### The geometry's bounds (R121 to R124) -/

theorem screenHeightOf_bounds (o : Bool) : 224 ≤ screenHeightOf o ∧ screenHeightOf o ≤ 240 := by
  cases o <;> decide

/-- Every frame has a blanking line, and its lines fit the line counter (R122, D10). -/
theorem frameHeightOf_bounds (f o : Bool) : screenHeightOf o < frameHeightOf f o ∧ frameHeightOf f o ≤ 65535 := by
  have hs := screenHeightOf_bounds o
  have hm := Nat.mod_lt (Config.frameLines f o) (show 0 < 65535 - screenHeightOf o by omega)
  unfold frameHeightOf
  omega

theorem activeWidth_mul_pixelWidth (s : State) : activeWidth s * pixelWidth s = 1280 := by
  unfold activeWidth pixelWidth Config.lineActive
  cases s.latch.displayWidth <;> rfl

/-! ### Keeping the invariant by keeping what it reads -/

/-- The parts of the invariant that speak of the line read these registers alone. -/
theorem State.Inv.of_registers {s t : State} (h : s.Inv) (hclock : t.clock = s.clock) (hlatch : t.latch = s.latch)
    (hirq : t.irq = s.irq) (hseq : t.seq = s.seq) (hvdp : t.time.vdp = s.time.vdp) (hpowered : t.powered = s.powered)
    (houtput : t.output = s.output) (hmem : t.MemoryFits) (hseen : t.SeenFits) (hsched : t.ScheduleFits) : t.Inv := by
  obtain ⟨_, _, _, _, _, ⟨_, _, _⟩, _, _, _, _, _, _, _, _, _, _, _⟩ := t
  subst hclock hlatch hirq hseq hvdp hpowered houtput
  exact ⟨h.powered, h.line, h.seq, h.counters, h.levels, h.clock, h.cursor, hmem, hseen, hsched⟩

theorem State.Inv.popTurn {s : State} (h : s.Inv) : (popTurn s).Inv :=
  h.of_registers rfl rfl rfl rfl rfl rfl rfl h.memory h.seen fun t ht => h.schedule t (List.mem_of_mem_tail ht)

theorem State.Inv.cooperate {s : State} (h : s.Inv) : (cooperate s).Inv :=
  h.of_registers rfl rfl rfl rfl rfl rfl rfl h.memory h.seen h.schedule

/-! ### What the invariant says at each phase -/

theorem State.Inv.at_pre {s : State} (h : s.Inv) (hp : s.seq.ph = .pre) :
    s.clock.hcounter = 0 ∧ s.clock.hdot = 0 ∧ s.seq.rem = 0 ∧ s.time.vdp % 1710 = 0 := by
  obtain ⟨hh, hd⟩ := h.counters.1 hp
  refine ⟨hh, hd, h.seq.2 (by simp [State.stepping, hp]), ?_⟩
  have := h.clock
  simp only [State.ClockFits, lineElapsed, hp, hh] at this
  simp at this
  omega

theorem State.Inv.at_dot {s : State} (h : s.Inv) (hp : s.seq.ph = .dot) :
    activeLine s = true ∧ s.clock.hcounter.toNat = s.clock.hdot.toNat * pixelWidth s ∧
      s.clock.hdot.toNat ≤ activeWidth s ∧ s.seq.rem = 0 := by
  obtain ⟨ha, hh, hd⟩ := h.counters.2.1 (by simp [State.inDotLoop, hp])
  exact ⟨ha, hh, hd, h.seq.2 (by simp [State.stepping, hp])⟩

theorem State.Inv.at_hint {s : State} (h : s.Inv) (hp : s.seq.ph = .hint) :
    activeLine s = true ∧ s.clock.hcounter.toNat = 1280 ∧ s.clock.hdot.toNat = activeWidth s ∧ s.seq.rem = 0 := by
  obtain ⟨ha, hh, hd⟩ := h.counters.2.2.1 hp
  exact ⟨ha, hh, hd, h.seq.2 (by simp [State.stepping, hp])⟩

theorem State.Inv.at_endLine {s : State} (h : s.Inv) (hp : s.seq.ph = .endLine) :
    s.clock.hcounter.toNat = 1710 ∧ s.seq.rem = 0 := by
  obtain ⟨hh, -⟩ := h.counters.2.2.2 (by simp [State.inLastStep, hp])
  exact ⟨hh, h.seq.2 (by simp [State.stepping, hp])⟩

/-- The levels after the `PRE` of a line (R147). -/
theorem State.Inv.levels_after_pre {s : State} (h : s.Inv) (hp : s.seq.ph ≠ .pre) :
    (s.irq.hblank = true → activeLine s = true ∧ s.inLastStep = true) ∧ (s.irq.vblank = true → activeLine s = false) ∧
      (s.irq.apuInt = true ↔ s.clock.vcounter.toNat = screenHeight s) :=
  h.levels.1 hp

/-! ### The micro-operations -/

/-- The vertical-blank line is low after the `PRE` of an active line (R142, R143). -/
theorem State.Inv.doPre_vblank {s : State} (h : s.Inv) (hp : s.seq.ph = .pre) (hv : (doPre s).irq.vblank = true) :
    activeLine s = false := by
  obtain ⟨-, hvblank⟩ := h.levels.2 hp
  have hactive : activeLine s = false ↔ screenHeight s ≤ s.clock.vcounter.toNat := by simp [activeLine]
  rw [hactive]
  rw [doPre_irq] at hv
  cases htop : atTop s
  · simp only [htop, Bool.false_eq_true, if_false, Bool.or_eq_true, Bool.and_eq_true, enteringBlank_iff] at hv
    have htop' := mt (atTop_iff s).2 (by simp [htop])
    obtain ⟨hv, -⟩ | hv := hv
    · exact hv.ge
    · obtain hv | hv := hvblank hv
      · exact absurd (by simp [hv]) htop'
      · exact hv.le
  · simp [htop] at hv

theorem doPre_vcounter (s : State) : (doPre s).clock.vcounter = s.clock.vcounter := by
  rw [doPre_clock]; split <;> rfl

theorem State.Inv.doPre_levels {s : State} (h : s.Inv) (hp : s.seq.ph = .pre) : (doPre s).LinesFit := by
  refine ⟨fun _ => ⟨fun hb => ?_, fun hv => ?_, ?_⟩, fun hpre => ?_⟩
  · simp [doPre_hblank] at hb
  · rw [activeLine_doPre]
    exact h.doPre_vblank hp hv
  · rw [doPre_apuInt, enteringBlank_iff, doPre_vcounter, screenHeight_doPre]
  · rw [doPre_seq] at hpre
    split at hpre <;> cases hpre

theorem State.Inv.doPre_memory {s : State} (h : s.Inv) : (doPre s).MemoryFits := by
  obtain ⟨hst, hbuf⟩ := h.memory
  rw [State.MemoryFits, doPre_stores, doPre_outbuf]
  split
  · exact ⟨Stores_wf_writeBytes _ _ hst, Pixels_wf_writePixels _ _ hbuf⟩
  · exact ⟨hst, hbuf⟩

theorem State.Inv.doPre {s : State} (h : s.Inv) (hp : s.seq.ph = .pre) : (doPre s).Inv := by
  obtain ⟨hh, hd, hrem, hvdp⟩ := h.at_pre hp
  have hblank : (addCounter 0#16 1710).toNat = 1710 := rfl
  refine ⟨by simp [h.powered], ?_, ?_, ?_, h.doPre_levels hp, ?_, by simp [h.cursor], h.doPre_memory,
    by simpa [State.SeenFits] using h.seen, by simpa [State.ScheduleFits] using h.schedule⟩
  · simpa only [State.LineInFrame, doPre_vcounter, frameHeight_doPre] using h.line
  · cases ha : activeLine s <;>
      simp [State.SeqFits, State.stepping, doPre_seq, doPre_clock, ha, hh, hrem, hblank, Config.lineBlank]
  · cases ha : activeLine s <;>
      simp [State.CountersFit, State.inDotLoop, State.inLastStep, State.stepping, doPre_seq, doPre_clock, ha, hh, hd,
        hblank, Config.lineTotal]
  · cases ha : activeLine s <;> simp [State.ClockFits, lineElapsed, doPre_seq, doPre_clock, ha, hh, hblank,
      Config.lineBlank] <;> omega

/-- A dot is left to draw exactly when `hcounter` has not reached the end of the dot loop (R152). -/
theorem State.Inv.hdot_lt_iff {s : State} (h : s.Inv) (hp : s.seq.ph = .dot) :
    s.clock.hcounter.toNat < 1280 ↔ s.clock.hdot.toNat < activeWidth s := by
  obtain ⟨-, hh, -, -⟩ := h.at_dot hp
  rw [hh, ← activeWidth_mul_pixelWidth s]
  exact Nat.mul_lt_mul_right (pixelWidth_pos s)

/-- The dot loop ends at the last dot exactly. -/
theorem State.Inv.hdot_eq {s : State} (h : s.Inv) (hp : s.seq.ph = .dot) (he : ¬ s.clock.hcounter.toNat < 1280) :
    s.clock.hdot.toNat = activeWidth s ∧ s.clock.hcounter.toNat = 1280 := by
  obtain ⟨-, hh, hd, -⟩ := h.at_dot hp
  have hd' : s.clock.hdot.toNat = activeWidth s := hd.antisymm (Nat.not_lt.1 (mt (h.hdot_lt_iff hp).2 he))
  exact ⟨hd', by rw [hh, hd', activeWidth_mul_pixelWidth]⟩

theorem doDot_vcounter (s : State) : (doDot s).clock.vcounter = s.clock.vcounter := by
  rw [doDot_clock]; split <;> rfl

theorem State.Inv.doDot_levels {s : State} (h : s.Inv) (hp : s.seq.ph = .dot) : (doDot s).LinesFit := by
  obtain ⟨hhblank, hvblank, hapu⟩ := h.levels_after_pre (by simp [hp])
  have hlow : s.irq.hblank = false := by simpa [State.inLastStep, State.stepping, hp] using hhblank
  refine ⟨fun _ => ⟨fun hb => ?_, ?_, ?_⟩, fun hpre => ?_⟩
  · simp [hlow] at hb
  · simpa using hvblank
  · simpa [doDot_vcounter] using hapu
  · rw [doDot_seq] at hpre
    split at hpre <;> cases hpre

theorem State.Inv.doDot_memory {s : State} (h : s.Inv) : (doDot s).MemoryFits := by
  obtain ⟨hst, hbuf⟩ := h.memory
  rw [State.MemoryFits, doDot_stores, doDot_outbuf]
  split
  · exact ⟨Stores_wf_writeBytes _ _ hst, Pixels_wf_writePixels _ _ hbuf⟩
  · exact ⟨hst, hbuf⟩

theorem activeWidth_le (s : State) : activeWidth s ≤ 320 := by
  unfold activeWidth pixelWidth
  cases s.latch.displayWidth <;> decide

/-- The counters after one pass of the dot loop (R152). -/
theorem State.Inv.doDot_counters {s : State} (h : s.Inv) (hp : s.seq.ph = .dot) (he : s.clock.hcounter.toNat < 1280) :
    (doDot s).clock.hdot.toNat = s.clock.hdot.toNat + 1 ∧
      (doDot s).clock.hcounter.toNat = s.clock.hcounter.toNat + pixelWidth s := by
  have hlt := (h.hdot_lt_iff hp).1 he
  have := activeWidth_le s
  have := pixelWidth_le s
  rw [doDot_clock, if_pos he]
  exact ⟨addCounter_toNat _ _ (by omega), addCounter_toNat _ _ (by omega)⟩

theorem State.Inv.doDot {s : State} (h : s.Inv) (hp : s.seq.ph = .dot) : (doDot s).Inv := by
  obtain ⟨ha, hh, hd, hrem⟩ := h.at_dot hp
  have hclocks : pixelWidth s % 2048 = pixelWidth s := Nat.mod_eq_of_lt ((pixelWidth_le s).trans_lt (by decide))
  have hclock := h.clock
  simp only [State.ClockFits, lineElapsed, hp] at hclock
  refine ⟨by simp [h.powered], ?_, ?_, ?_, h.doDot_levels hp, ?_, by simp [h.cursor], h.doDot_memory,
    by simpa [State.SeenFits] using h.seen, by simpa [State.ScheduleFits] using h.schedule⟩
  · simpa only [State.LineInFrame, doDot_vcounter, frameHeight_doDot] using h.line
  all_goals by_cases he : s.clock.hcounter.toNat < 1280
  · obtain ⟨-, hh'⟩ := h.doDot_counters hp he
    have := pixelWidth_pos s
    simp [State.SeqFits, State.stepping, doDot_seq, he, hh', hclocks]
    omega
  · simp [State.SeqFits, State.stepping, doDot_seq, he, hrem]
  · obtain ⟨hd', hh'⟩ := h.doDot_counters hp he
    have hnext : (s.clock.hdot.toNat + 1) * pixelWidth s = s.clock.hcounter.toNat + pixelWidth s := by rw [hh]; ring
    have hlt := (h.hdot_lt_iff hp).1 he
    simp [State.CountersFit, State.inDotLoop, State.inLastStep, State.stepping, doDot_seq, he, hh', hd', ha, hnext]
    omega
  · obtain ⟨hd', hh'⟩ := h.hdot_eq hp he
    simp [State.CountersFit, State.inDotLoop, State.inLastStep, State.stepping, doDot_seq, doDot_clock, ha, hd', hh',
      Config.lineActive]
  · obtain ⟨-, hh'⟩ := h.doDot_counters hp he
    simpa [State.ClockFits, lineElapsed, doDot_seq, he, hh', hclocks] using hclock
  · simpa [State.ClockFits, lineElapsed, doDot_seq, doDot_clock, he] using hclock

theorem State.Inv.doHint {s : State} (h : s.Inv) (hp : s.seq.ph = .hint) : (doHint s).Inv := by
  obtain ⟨ha, hh, hd, hrem⟩ := h.at_hint hp
  obtain ⟨-, hvblank, hapu⟩ := h.levels_after_pre (by simp [hp])
  have hclock := h.clock
  simp only [State.ClockFits, lineElapsed, hp, hh] at hclock
  have hh' : (addCounter s.clock.hcounter 430).toNat = 1710 := by rw [addCounter_toNat _ _ (by omega), hh]
  refine ⟨by simp [h.powered], ?_, ?_, ?_, ?_, ?_, by simp [h.cursor], by simpa [State.MemoryFits] using h.memory,
    by simpa [State.SeenFits] using h.seen, by simpa [State.ScheduleFits] using h.schedule⟩
  · simpa [State.LineInFrame, doHint_clock] using h.line
  · simp [State.SeqFits, State.stepping, doHint_seq, doHint_clock, hh', Config.lineTail]
  · simp [State.CountersFit, State.inDotLoop, State.inLastStep, State.stepping, doHint_seq, doHint_clock, ha, hh', hd,
      Config.lineTotal]
  · have hirq : (Machine.doHint s).irq.vblank = s.irq.vblank ∧ (Machine.doHint s).irq.apuInt = s.irq.apuInt := by
      rw [doHint_irq]; split <;> exact ⟨rfl, rfl⟩
    simp [State.LinesFit, State.inLastStep, State.stepping, doHint_seq, doHint_clock, ha, hirq]
    exact ⟨by simpa [ha] using hvblank, hapu⟩
  · simpa [State.ClockFits, lineElapsed, doHint_seq, doHint_clock, hh', Config.lineTail] using hclock

theorem State.Inv.doTick {s : State} (h : s.Inv) (hp : s.seq.ph = .tick) : (doTick s).Inv := by
  obtain ⟨hst, hbuf⟩ := h.memory
  have hclock := h.clock
  simp only [State.ClockFits, lineElapsed, hp] at hclock
  refine ⟨h.powered, h.line, ?_, ?_, ?_, ?_, h.cursor, ⟨Stores_wf_writeBytes _ _ hst, hbuf⟩, h.seen, h.schedule⟩
  · simpa [State.SeqFits, State.stepping, hp] using h.seq
  · simpa [State.CountersFit, State.inDotLoop, State.inLastStep, State.stepping, hp] using h.counters
  · simpa [State.LinesFit, State.inLastStep, State.stepping, hp] using h.levels
  · simp [State.ClockFits, lineElapsed]
    omega

/-- What the siblings see of the two lines when `SYNC` is passed (R191). -/
theorem State.Inv.lines_not_both {s : State} (h : s.Inv) : ¬ (s.irq.hblank = true ∧ s.irq.vblank = true) := by
  rintro ⟨hh, hv⟩
  by_cases hp : s.seq.ph = .pre
  · obtain ⟨hhblank, hvblank⟩ := h.levels.2 hp
    obtain ⟨hpos, hle⟩ := hhblank hh
    obtain hv | hv := hvblank hv
    · simp [hv] at hpos
    · omega
  · obtain ⟨hhblank, hvblank, -⟩ := h.levels_after_pre hp
    simpa [hvblank hv] using (hhblank hh).1

/-- Where a passed `SYNC` leaves the sequencer, by the clocks left (R133). -/
theorem passBarrier_seq_cases (s : State) (h : 1 ≤ s.seq.rem.toNat) :
    (s.seq.rem.toNat = 1 ∧ (passBarrier s).seq = ⟨s.seq.ret.phase, 0, s.seq.ret⟩) ∨
      ∃ r : Clocks, 1 ≤ r.toNat ∧ s.seq.rem.toNat = r.toNat + 1 ∧ (passBarrier s).seq = ⟨.tick, r, s.seq.ret⟩ := by
  have hdec := decRem_toNat s.seq.rem h
  obtain hlast | hmore := Nat.eq_zero_or_pos (decRem s.seq.rem).toNat
  · refine .inl ⟨by omega, ?_⟩
    rw [passBarrier_seq, if_neg (by omega), show decRem s.seq.rem = 0 from BitVec.eq_of_toNat_eq hlast]
  · exact .inr ⟨decRem s.seq.rem, hmore, by omega, by rw [passBarrier_seq, if_pos hmore]⟩

theorem State.Inv.passBarrier {s : State} (h : s.Inv) (hp : s.seq.ph = .sync) : (passBarrier s).Inv := by
  obtain ⟨hrem, hle, hret⟩ := h.seq.1 (by simp [State.stepping, hp])
  have hclock := h.clock
  have hcounters := h.counters
  have hlevels := h.levels
  simp only [State.ClockFits, lineElapsed, hp] at hclock
  simp only [State.CountersFit, State.LinesFit, State.inDotLoop, State.inLastStep, State.stepping, hp] at hcounters hlevels
  refine ⟨h.powered, h.line, ?_, ?_, ?_, ?_, h.cursor, h.memory, h.lines_not_both, h.schedule⟩
  all_goals obtain ⟨hlast, hseq⟩ | ⟨r, hr, hrem', hseq⟩ := passBarrier_seq_cases s hrem
  · cases hr : s.seq.ret <;> simp_all [State.SeqFits, State.stepping, Ret.phase, -passBarrier_seq]
  · simp [State.SeqFits, State.stepping, hseq, hr, hret, -passBarrier_seq]
    omega
  · cases hr : s.seq.ret <;>
      simp_all [State.CountersFit, State.inDotLoop, State.inLastStep, State.stepping, Ret.phase, -passBarrier_seq]
  · simpa [State.CountersFit, State.inDotLoop, State.inLastStep, State.stepping, hseq, -passBarrier_seq] using hcounters
  · cases hr : s.seq.ret <;> simp_all [State.LinesFit, State.inLastStep, State.stepping, Ret.phase, -passBarrier_seq]
  · simpa [State.LinesFit, State.inLastStep, State.stepping, hseq, -passBarrier_seq] using hlevels
  · cases hr : s.seq.ret <;> simp_all [State.ClockFits, lineElapsed, Ret.phase, -passBarrier_seq]
  · simp only [State.ClockFits, lineElapsed, hseq, passBarrier_clock, passBarrier_time]
    omega

/-- The line after a line counter's advance: the frame goes on, or starts again (R157). -/
theorem doEnd_vcounter_toNat (s : State) :
    (doEnd s).clock.vcounter.toNat = if frameWraps s then 0 else s.clock.vcounter.toNat + 1 := by
  rw [doEnd_clock]
  cases hw : frameWraps s
  · have hlt : ¬ frameHeight s ≤ s.clock.vcounter.toNat + 1 := by simpa [frameWraps] using hw
    have := (frameHeightOf_bounds s.clock.field s.latch.overscan).2
    have : s.clock.vcounter.toNat + 1 < 65536 := by simp only [frameHeight] at hlt; omega
    simpa using Nat.mod_eq_of_lt this
  · rfl

theorem frameHeight_doEnd (s : State) (h : frameWraps s = false) : frameHeight (doEnd s) = frameHeight s := by
  simp [frameHeight, doEnd_clock, doEnd_latch, h]

theorem screenHeight_doEnd (s : State) (h : frameWraps s = false) : screenHeight (doEnd s) = screenHeight s := by
  simp [screenHeight, doEnd_latch, h]

theorem screenHeight_lt_frameHeight (s : State) : screenHeight s < frameHeight s :=
  (frameHeightOf_bounds s.clock.field s.latch.overscan).1

theorem State.Inv.doEnd_levels {s : State} (h : s.Inv) (hp : s.seq.ph = .endLine) : (doEnd s).LinesFit := by
  obtain ⟨hhblank, hvblank, -⟩ := h.levels_after_pre (by simp [hp])
  have hv' := doEnd_vcounter_toNat s
  have hframe := screenHeight_lt_frameHeight s
  refine ⟨fun hpre => absurd (by rw [doEnd_seq]) hpre, fun _ => ?_⟩
  rw [doEnd_irq]
  cases hw : frameWraps s
  · rw [screenHeight_doEnd s hw, hv', hw]
    refine ⟨fun hb => ?_, fun hv => .inr ?_⟩
    · have := (activeLine_iff s).1 (hhblank hb).1
      exact ⟨Nat.succ_pos _, this⟩
    · have := hvblank hv
      simp only [activeLine, decide_eq_false_iff_not] at this
      simp only [Bool.false_eq_true, if_false]
      omega
  · refine ⟨fun hb => ?_, fun _ => .inl (by rw [doEnd_clock, hw]; rfl)⟩
    have := (activeLine_iff s).1 (hhblank hb).1
    simp only [frameWraps, decide_eq_true_eq] at hw
    omega

theorem State.Inv.doEnd {s : State} (h : s.Inv) (hp : s.seq.ph = .endLine) : (doEnd s).Inv := by
  obtain ⟨hh, hrem⟩ := h.at_endLine hp
  have hclock := h.clock
  simp only [State.ClockFits, lineElapsed, hp, hh] at hclock
  have hzero : (Machine.doEnd s).clock.hcounter = 0 ∧ (Machine.doEnd s).clock.hdot = 0 := by
    rw [doEnd_clock]; split <;> exact ⟨rfl, rfl⟩
  refine ⟨by simp [h.powered], ?_, ?_, ?_, h.doEnd_levels hp, ?_, by simp [h.cursor],
    by simpa [State.MemoryFits] using h.memory, by simpa [State.SeenFits] using h.seen,
    by simpa [State.ScheduleFits] using h.schedule⟩
  · rw [State.LineInFrame, doEnd_vcounter_toNat]
    cases hw : frameWraps s
    · rw [frameHeight_doEnd s hw]
      simpa [frameWraps] using hw
    · have := screenHeight_lt_frameHeight (Machine.doEnd s)
      simp only [if_true]
      omega
  · simp [State.SeqFits, State.stepping, doEnd_seq, hrem]
  · simp [State.CountersFit, State.inDotLoop, State.inLastStep, State.stepping, doEnd_seq, hzero]
  · simpa [State.ClockFits, lineElapsed, doEnd_seq, hzero] using hclock

/-! ### Every step -/

theorem State.Inv.doSync {s : State} (h : s.Inv) (hp : s.seq.ph = .sync) : (doSync s).Inv := by
  unfold Machine.doSync
  split
  · exact h.passBarrier hp
  · exact h

theorem State.Inv.coopStep (s : State) (h : s.Inv) : (coopStep s).Inv := by
  cases hp : s.seq.ph with
  | pre => rw [coopStep_of_pre s hp]; exact h.doPre hp
  | dot => rw [coopStep_of_dot s hp]; exact h.doDot hp
  | hint => rw [coopStep_of_hint s hp]; exact h.doHint hp
  | tick => rw [coopStep_of_tick s hp]; exact h.doTick hp
  | sync => rw [coopStep_of_sync s hp]; exact h.cooperate.passBarrier hp
  | endLine => rw [coopStep_of_endLine s hp]; exact h.doEnd hp

/-- The micro-operation `seq.ph` names, on the state (R40, R100). -/
def engineStep (s : State) : State :=
  match s.seq.ph with
  | .pre => doPre s
  | .dot => doDot s
  | .hint => doHint s
  | .tick => doTick s
  | .sync => doSync s
  | .endLine => doEnd s

theorem exec_phase_instr (s : State) : exec s.seq.ph.instr s = whenPowered s (.next (engineStep s)) := by
  unfold engineStep
  cases s.seq.ph <;> rfl

/-- The engine's turn that answers a next state makes the micro-operation of its phase. -/
theorem eq_of_step_engine {s t : State} (hn : nextTurn s = .engine) (hs : step s = .next t) : t = engineStep (popTurn s) := by
  rw [step_engine s hn] at hs
  exact eq_of_whenPowered_next ((exec_phase_instr (popTurn s)).symm.trans hs)

theorem State.Inv.engineStep {s : State} (h : s.Inv) : (engineStep s).Inv := by
  unfold Machine.engineStep
  cases hp : s.seq.ph with
  | pre => exact h.doPre hp
  | dot => exact h.doDot hp
  | hint => exact h.doHint hp
  | tick => exact h.doTick hp
  | sync => exact h.doSync hp
  | endLine => exact h.doEnd hp

/-! What the three commands that are not a single guard can answer. -/

theorem eq_of_exec_power {reset : Bool} {s t : State} (h : exec (.power reset) s = .next t) : t = doPower reset s := by
  change execPower reset s = .next t at h
  unfold execPower at h
  split at h
  · cases h
  · injection h with h
    exact h.symm

theorem eq_of_exec_cfgwr {fld : CfgField} {val : Byte} {s t : State} (h : exec (.cfgwr fld val) s = .next t) :
    t = { s with io := Io.write s.io fld val, seen := seenAfterCfgwr fld val s.seen } := by
  obtain ⟨-, -, h⟩ := (whenQuiescent_next s t _).1 h
  split at h
  · injection h with h
    exact h.symm
  · cases h

theorem eq_of_exec_run {n : BitVec 16} {s t : State} (h : exec (.run n) s = .next t) : t = runTicks n.toNat s := by
  obtain ⟨-, h⟩ := (whenPowered_next s t _).1 h
  split at h
  · cases h
  · injection h with h
    exact h.symm

theorem State.Inv.doPower {s : State} (h : s.Inv) (reset : Bool) : (doPower reset s).Inv where
  powered := rfl
  line := (Nat.zero_le _).trans_lt (frameHeightOf_bounds false false).1
  seq := by simp [State.SeqFits, State.stepping]
  counters := by simp [State.CountersFit, State.inDotLoop, State.inLastStep, State.stepping]
  levels := by simp [State.LinesFit]
  clock := by simp [State.ClockFits, lineElapsed]
  cursor := by simp
  memory := by
    obtain ⟨hst, hbuf⟩ := h.memory
    cases reset
    · exact ⟨rfl, hbuf⟩
    · exact ⟨hst, hbuf⟩
  seen := h.seen
  schedule := h.schedule

/-- A `CFGWR` changes nothing of what the siblings see of the two lines (R38). -/
theorem seenAfterCfgwr_lines (fld : CfgField) (val : Byte) (v : Views) :
    (seenAfterCfgwr fld val v).cpu.hblank = v.cpu.hblank ∧ (seenAfterCfgwr fld val v).cpu.vblank = v.cpu.vblank := by
  cases fld <;> exact ⟨rfl, rfl⟩

/-- Every operation of `HOST`, `MAINCPU` and run control keeps the invariant. -/
theorem State.Inv.exec {i : Instr} {s t : State} (h : s.Inv) (hi : i.agent ≠ .engine) (he : exec i s = .next t) : t.Inv := by
  obtain ⟨hst, hbuf⟩ := h.memory
  cases i with
  | power reset => rw [eq_of_exec_power he]; exact h.doPower reset
  | refresh pref =>
    rw [eq_of_whenQuiescent_next he]
    exact h.of_registers rfl rfl rfl rfl rfl rfl rfl h.memory h.seen h.schedule
  | dbgrd sp addr =>
    rw [eq_of_whenQuiescent_next he]
    exact h.of_registers rfl rfl rfl rfl rfl rfl rfl h.memory h.seen h.schedule
  | dbgwr sp addr data =>
    rw [eq_of_whenQuiescent_next he]
    exact h.of_registers rfl rfl rfl rfl rfl rfl rfl ⟨Stores_wf_memWrite _ _ _ _ hst, hbuf⟩ h.seen h.schedule
  | cfgwr fld val =>
    rw [eq_of_exec_cfgwr he]
    obtain ⟨hh, hv⟩ := seenAfterCfgwr_lines fld val s.seen
    exact h.of_registers rfl rfl rfl rfl rfl rfl rfl h.memory (by rw [State.SeenFits, hh, hv]; exact h.seen) h.schedule
  | line => rw [eq_of_whenPowered_next he]; exact doLine_keeps State.Inv State.Inv.coopStep s h
  | run n => rw [eq_of_exec_run he]; exact runTicks_keeps State.Inv State.Inv.coopStep _ s h
  | _ => exact absurd rfl hi

/-- The stores that a turn of a sibling's domain leaves are in canonical form. -/
theorem runTurn_sibling_stores {u : Turn} {s t : State} (he : u ≠ .engine) (hc : ∀ w, u ≠ .command w)
    (hm : ∀ w, u ≠ .micro w) (h : runTurn u s = .next t) (hwf : s.stores.wf = true) : t.stores.wf = true := by
  cases u with
  | engine => exact absurd rfl he
  | command w => exact absurd rfl (hc w)
  | micro w => exact absurd rfl (hm w)
  | decodeStore sp a v =>
    obtain ⟨-, -, h⟩ := (whenYielding_next _ _ _).1 h
    cases h
    exact Stores_wf_memWrite _ _ _ _ hwf
  | _ =>
    obtain ⟨-, -, h⟩ := (whenYielding_next _ _ _).1 h
    cases h
    exact hwf

theorem State.Inv.runTurn_sibling {u : Turn} {s t : State} (hs : s.Inv) (he : u ≠ .engine) (hc : ∀ w, u ≠ .command w)
    (hm : ∀ w, u ≠ .micro w) (h : runTurn u s = .next t) : t.Inv := by
  have hst := runTurn_sibling_stores he hc hm h hs.memory.1
  obtain ⟨-, -, hclock, hlatch, -, hirq, hseq, hvdp, houtput, hbuf, -, hpowered, hseen, -, hsched, -⟩ :=
    runTurn_sibling_frame u s t (by cases u <;> simp_all) h
  exact hs.of_registers hclock hlatch hirq hseq hvdp hpowered houtput ⟨hst, hbuf ▸ hs.memory.2⟩
    (by rw [State.SeenFits, hseen]; exact hs.seen) (by rw [State.ScheduleFits, hsched]; exact hs.schedule)

/-- The turn a state of the invariant takes is no bare micro-operation word (R102). -/
theorem State.Inv.nextTurn_ne_micro {s : State} (h : s.Inv) (w : UopWord) : nextTurn s ≠ .micro w := by
  intro hn
  unfold nextTurn at hn
  cases hsched : s.schedule with
  | nil => simp [hsched] at hn
  | cons u rest =>
    have hu := h.schedule u (by simp [hsched])
    simp only [hsched, List.headD_cons] at hn
    simp [hn, Turn.ofAgent] at hu

/-- Settles O56: the engine's turn by `State.Inv.engineStep`, a command by `State.Inv.exec`, a turn of a sibling's domain
by what it leaves alone. -/
theorem stepKeepsTheInvariant : Obligations.StepKeepsTheInvariant := by
  intro s t h hs
  by_cases he : nextTurn s = .engine
  · exact eq_of_step_engine he hs ▸ h.popTurn.engineStep
  by_cases hc : ∃ w, nextTurn s = .command w
  · obtain ⟨w, hn⟩ := hc
    obtain ⟨i, -, hi, hexec⟩ := step_command s t w hn hs
    exact h.popTurn.exec hi hexec
  · exact h.popTurn.runTurn_sibling he (not_exists.1 hc) h.nextTurn_ne_micro hs

/-- Settles O55: each part of the invariant, of the registers at their reset values. -/
theorem resetMeetsTheInvariant : Obligations.ResetMeetsTheInvariant where
  powered := rfl
  line := (Nat.zero_le _).trans_lt (frameHeightOf_bounds false false).1
  seq := by simp only [State.SeqFits]; decide
  counters := by simp only [State.CountersFit]; decide
  levels := by simp only [State.LinesFit]; decide
  clock := by simp only [State.ClockFits]; decide
  cursor := rfl
  memory := ⟨rfl, rfl⟩
  seen := by simp only [State.SeenFits]; decide
  schedule := nofun

/-! ### Every run -/

theorem andThen_next (r : Result) (k : State → Result) (t : State) :
    andThen r k = .next t ↔ ∃ u, r = .next u ∧ k u = .next t := by
  cases r <;> simp [andThen]

/-- One step of a run, and the rest of it. -/
theorem core_run_succ (k : Nat) (s : State) :
    Host.Core.run core (k + 1) s = andThen (step s) (Host.Core.run core k) := by
  change _ = andThen (core.step s) (Host.Core.run core k)
  simp only [Host.Core.run]
  cases core.step s <;> rfl

/-- The invariant holds of every state that steps reach. -/
theorem State.Inv.run {s t : State} (h : s.Inv) (k : Nat) (hr : Host.Core.run core k s = .next t) : t.Inv := by
  induction k generalizing s with
  | zero =>
    cases hr
    exact h
  | succ k ih =>
    obtain ⟨u, hs, hr⟩ := (andThen_next _ _ _).1 ((core_run_succ k s).symm.trans hr)
    exact ih (stepKeepsTheInvariant s u h hs) hr

/-- Settles O57: the invariant holds of the reached state, and forbids both. -/
theorem flopsNeverBothHigh : Obligations.FlopsNeverBothHigh :=
  fun _ _ k h hr => ⟨(h.run k hr).lines_not_both, (h.run k hr).seen⟩

/-- Settles O58: the invariant holds of the reached state, and says so at `PRE`. -/
theorem linesStartOnTheBudget : Obligations.LinesStartOnTheBudget := by
  intro s t k h hr hp
  obtain ⟨-, -, -, hvdp⟩ := (h.run k hr).at_pre hp
  exact hvdp

end Sys2Proof.Machine
end

section
/-! The horizontal countdown (R142, R145, R146): every step that leaves `io.hic` alone keeps it where the period law puts
it, and the period law in every run. -/

namespace Sys2Proof.Machine

open Sys2Proof.Spec

/-! ### The countdown's arithmetic -/

/-- The remaining count, one line on: it falls by one, and starts again where it was 0. -/
theorem sub_succ_mod (k v : Nat) :
    k - (v + 1) % (k + 1) = if k - v % (k + 1) = 0 then k else k - v % (k + 1) - 1 := by
  have hlt : v % (k + 1) < k + 1 := Nat.mod_lt v (Nat.succ_pos k)
  rw [← Nat.mod_add_mod v (k + 1) 1]
  obtain hlast | hmore := eq_or_ne (v % (k + 1)) k
  · simp [hlast]
  · rw [Nat.mod_eq_of_lt (show v % (k + 1) + 1 < k + 1 by omega), if_neg (by omega)]
    omega

theorem hicUnderflow_iff (s : State) : hicUnderflow s = true ↔ s.latch.hic.toNat = 0 :=
  beq_iff_eq.trans BitVec.toNat_inj.symm

/-! ### Keeping the countdown by keeping what it reads -/

theorem State.CountdownFits.of_registers {s t : State} (h : s.CountdownFits) (hclock : t.clock = s.clock)
    (hlatch : t.latch = s.latch) (hseq : t.seq = s.seq) (hhic : t.io.hic = s.io.hic) : t.CountdownFits := by
  obtain ⟨_, _, ⟨_, _, _, _, _, _⟩, _, _, _, _, _, _, _, _, _, _, _, _, _, _⟩ := t
  subst hclock hlatch hseq hhic
  exact h

/-- Where the countdown stands after the `PRE` of a line and before its `HINT`. -/
theorem State.CountdownFits.before_hint {s : State} (h : s.CountdownFits) (ha : activeLine s = true)
    (hp : s.seq.ph ≠ .pre) (hlast : s.inLastStep = false) :
    s.latch.hic.toNat = s.io.hic.toNat - s.clock.vcounter.toNat % (s.io.hic.toNat + 1) := by
  simpa [hlast] using h ha fun hpre => hp hpre.1

theorem State.CountdownFits.doPre {s : State} (h : s.CountdownFits) (hp : s.seq.ph = .pre) : (doPre s).CountdownFits := by
  intro ha _
  rw [activeLine_doPre] at ha
  have hlast : (Machine.doPre s).inLastStep = false := by
    simp [State.inLastStep, State.stepping, doPre_seq, ha]
  have hlast' : s.inLastStep = false := by simp [State.inLastStep, State.stepping, hp]
  have hio : (Machine.doPre s).io.hic = s.io.hic := by rw [doPre_io]
  rw [hlast, hio, doPre_vcounter, doPre_latch]
  cases htop : atTop s
  · have htop' := mt (atTop_iff s).2 (by simp [htop])
    simpa [hlast'] using h ha fun hv => htop' (by simp [hv.2])
  · simp [(atTop_iff s).1 htop]

theorem State.CountdownFits.doDot {s : State} (h : s.CountdownFits) (hp : s.seq.ph = .dot) : (doDot s).CountdownFits := by
  intro ha _
  rw [activeLine_doDot] at ha
  have hlast : (Machine.doDot s).inLastStep = false := by
    rw [State.inLastStep, State.stepping, doDot_seq]; split <;> rfl
  rw [hlast, doDot_vcounter, doDot_latch, doDot_io]
  exact h.before_hint ha (by simp [hp]) (by simp [State.inLastStep, State.stepping, hp])

theorem State.CountdownFits.doHint {s : State} (h : s.CountdownFits) (hp : s.seq.ph = .hint) : (doHint s).CountdownFits := by
  intro ha _
  rw [activeLine_doHint] at ha
  have hlast : (Machine.doHint s).inLastStep = true := by simp [State.inLastStep, State.stepping, doHint_seq]
  have hcount := h.before_hint ha (by simp [hp]) (by simp [State.inLastStep, State.stepping, hp])
  rw [hlast, doHint_clock, doHint_latch, doHint_io, if_pos rfl, sub_succ_mod, ← hcount]
  simp only [hicUnderflow_iff]
  split
  · rfl
  · exact BitVec.toNat_sub_of_le (by simp [BitVec.le_def]; omega)

theorem State.CountdownFits.doTick {s : State} (h : s.CountdownFits) (hp : s.seq.ph = .tick) : (doTick s).CountdownFits := by
  simpa [State.CountdownFits, State.inLastStep, State.stepping, hp] using h

theorem State.CountdownFits.passBarrier {s : State} (h : s.CountdownFits) (hs : s.Inv) (hp : s.seq.ph = .sync) :
    (passBarrier s).CountdownFits := by
  obtain ⟨hrem, -, hret⟩ := hs.seq.1 (by simp [State.stepping, hp])
  have hlast : (Machine.passBarrier s).inLastStep = s.inLastStep := by
    simp only [State.inLastStep, State.stepping, hp]
    obtain ⟨-, hseq⟩ | ⟨r, -, -, hseq⟩ := passBarrier_seq_cases s hrem
    · rw [hseq]
      cases hr : s.seq.ret with
      | pre => exact absurd hr hret
      | dot => rfl
      | endLine => rfl
    · rw [hseq]
      rfl
  intro ha _
  rw [hlast]
  exact h ha (by simp [hp])

theorem State.CountdownFits.doEnd {s : State} (h : s.CountdownFits) (hp : s.seq.ph = .endLine) : (doEnd s).CountdownFits := by
  intro ha htop
  have hv := doEnd_vcounter_toNat s
  cases hw : frameWraps s
  · have hactive : activeLine s = true := by
      have := (activeLine_iff _).1 ha
      rw [screenHeight_doEnd s hw, hv, hw] at this
      exact (activeLine_iff s).2 (Nat.lt_of_succ_lt this)
    have hlast : s.inLastStep = true := by simp [State.inLastStep, hp]
    have hlast' : (Machine.doEnd s).inLastStep = false := by simp [State.inLastStep, State.stepping, doEnd_seq]
    rw [hlast', hv, hw, doEnd_latch, doEnd_io]
    simpa [hlast] using h hactive (by simp [hp])
  · exact absurd ⟨by rw [doEnd_seq], by rw [doEnd_clock, hw]; rfl⟩ htop

/-! ### Every step -/

theorem State.CountdownFits.engineStep {s : State} (h : s.CountdownFits) (hs : s.Inv) : (engineStep s).CountdownFits := by
  unfold Machine.engineStep
  cases hp : s.seq.ph with
  | pre => exact h.doPre hp
  | dot => exact h.doDot hp
  | hint => exact h.doHint hp
  | tick => exact h.doTick hp
  | sync =>
    show (doSync s).CountdownFits
    unfold doSync
    split
    · exact h.passBarrier hs hp
    · exact h
  | endLine => exact h.doEnd hp

/-- The invariant and the countdown together are what run control keeps. -/
theorem coopStep_keeps_countdown (s : State) (h : s.Inv ∧ s.CountdownFits) :
    (coopStep s).Inv ∧ (coopStep s).CountdownFits := by
  obtain ⟨hs, h⟩ := h
  refine ⟨hs.coopStep s, ?_⟩
  cases hp : s.seq.ph with
  | pre => rw [coopStep_of_pre s hp]; exact h.doPre hp
  | dot => rw [coopStep_of_dot s hp]; exact h.doDot hp
  | hint => rw [coopStep_of_hint s hp]; exact h.doHint hp
  | tick => rw [coopStep_of_tick s hp]; exact h.doTick hp
  | sync => rw [coopStep_of_sync s hp]; exact State.CountdownFits.passBarrier (s := cooperate s) h hs.cooperate hp
  | endLine => rw [coopStep_of_endLine s hp]; exact h.doEnd hp

theorem State.CountdownFits.exec {i : Instr} {s t : State} (h : s.CountdownFits) (hs : s.Inv) (hi : i.agent ≠ .engine)
    (he : exec i s = .next t) (hhic : t.io.hic = s.io.hic) : t.CountdownFits := by
  cases i with
  | power reset => rw [eq_of_exec_power he]; exact fun _ htop => absurd ⟨rfl, rfl⟩ htop
  | refresh pref => rw [eq_of_whenQuiescent_next he]; exact h
  | dbgrd sp addr => rw [eq_of_whenQuiescent_next he]; exact h
  | dbgwr sp addr data => rw [eq_of_whenQuiescent_next he]; exact h
  | cfgwr fld val => rw [eq_of_exec_cfgwr he] at hhic ⊢; exact h.of_registers rfl rfl rfl hhic
  | line => rw [eq_of_whenPowered_next he]; exact (doLine_keeps _ coopStep_keeps_countdown s ⟨hs, h⟩).2
  | run n => rw [eq_of_exec_run he]; exact (runTicks_keeps _ coopStep_keeps_countdown _ s ⟨hs, h⟩).2
  | _ => exact absurd rfl hi

/-- Settles O27: the engine's turn by `State.CountdownFits.engineStep`, a command by `State.CountdownFits.exec`; a turn of
a sibling's domain leaves alone all that the countdown's law reads. -/
theorem stepKeepsTheCountdown : Obligations.StepKeepsTheCountdown := by
  intro s t hs h hstep hhic
  by_cases he : nextTurn s = .engine
  · exact eq_of_step_engine he hstep ▸ State.CountdownFits.engineStep (s := popTurn s) h hs.popTurn
  by_cases hc : ∃ w, nextTurn s = .command w
  · obtain ⟨w, hn⟩ := hc
    obtain ⟨i, -, hi, hexec⟩ := step_command s t w hn hstep
    exact State.CountdownFits.exec (s := popTurn s) h hs.popTurn hi hexec hhic
  · have hm := hs.nextTurn_ne_micro
    obtain ⟨-, -, hclock, hlatch, -, -, hseq, -⟩ :=
      runTurn_sibling_frame (nextTurn s) (popTurn s) t (by cases hn : nextTurn s <;> simp_all) hstep
    exact h.of_registers hclock hlatch hseq hhic

/-! ### The raises of the line (R145, R146) -/

theorem count_raises_preEvents (s : State) : (preEvents s).count (.cpuRaise .hblank) = 0 := by
  unfold preEvents
  simp only [List.count_append]
  split_ifs <;> rfl

/-- Of the micro-operations only `HINT` raises the horizontal-blank line, and once, at underflow. -/
theorem engineStep_count_raises (s : State) :
    (engineStep s).trace.count (.cpuRaise .hblank) =
      s.trace.count (.cpuRaise .hblank) +
        if s.seq.ph = .hint ∧ hicUnderflow s = true ∧ s.io.hbie = true then 1 else 0 := by
  unfold engineStep
  cases hp : s.seq.ph with
  | pre => simp [doPre_trace, count_raises_preEvents]
  | dot => simp only [State.trace, List.count_reverse, doDot_log]; split <;> simp
  | hint => simp only [State.trace, List.count_reverse, doHint_log]; cases hicUnderflow s <;> cases s.io.hbie <;> simp
  | tick => simp [State.trace]
  | sync => simp only [State.trace, List.count_reverse, doSync]; split <;> simp
  | endLine => simp [State.trace]

/-- The events of a `HOST` command other than `POWER`, or of a `CFGWR`: at most the one of a `REFRESH`. -/
theorem exec_command_log {i : Instr} {s t : State} (hi : i.agent = .host ∨ i.agent = .mainCpu)
    (hpower : ∀ reset, i ≠ .power reset) (h : exec i s = .next t) :
    t.log = s.log ∨ ∃ pref, t.log = refreshEvent pref s :: s.log := by
  cases i with
  | power reset => exact absurd rfl (hpower reset)
  | refresh pref => rw [eq_of_whenQuiescent_next h]; exact .inr ⟨pref, rfl⟩
  | dbgrd sp addr => rw [eq_of_whenQuiescent_next h]; exact .inl rfl
  | dbgwr sp addr data => rw [eq_of_whenQuiescent_next h]; exact .inl rfl
  | cfgwr fld val => rw [eq_of_exec_cfgwr h]; exact .inl rfl
  | _ => simp [Instr.agent] at hi

/-- The events of a plain turn other than the engine's: at most the one of a `REFRESH`. -/
theorem step_plain_log {s t : State} (hp : plainTurn (nextTurn s)) (he : nextTurn s ≠ .engine) (hs : step s = .next t) :
    t.log = s.log ∨ ∃ pref, t.log = refreshEvent pref s :: s.log := by
  by_cases hc : ∃ w, nextTurn s = .command w
  · obtain ⟨w, hn⟩ := hc
    obtain ⟨i, hi, hpower, hexec⟩ := step_plain_command s t w hn (hn ▸ hp) hs
    exact exec_command_log (s := popTurn s) hi hpower hexec
  · have hm : ∀ w, nextTurn s ≠ .micro w := fun w hn => by rwa [hn] at hp
    obtain ⟨-, -, -, -, -, -, -, -, -, -, hlog, -⟩ :=
      runTurn_sibling_frame (nextTurn s) (popTurn s) t (by cases hn : nextTurn s <;> simp_all) hs
    exact .inl hlog

/-- Every turn of a run from the top of the frame that leaves `io.hic` alone keeps the invariant and the countdown. -/
theorem runOf_keeps_countdown {r : Nat → State} {n : Nat} (hr : RunOf r n) (hinv : (r 0).Inv) (hp : (r 0).seq.ph = .pre)
    (hv : (r 0).clock.vcounter = 0) (hhic : ∀ i, i ≤ n → (r i).io.hic = (r 0).io.hic) :
    ∀ i, i ≤ n → (r i).Inv ∧ (r i).CountdownFits := by
  intro i hi
  induction i with
  | zero => exact ⟨hinv, fun _ htop => absurd ⟨hp, hv⟩ htop⟩
  | succ i ih =>
    obtain ⟨hs, hcount⟩ := ih (by omega)
    have hstep := hr i (by omega)
    exact ⟨stepKeepsTheInvariant _ _ hs hstep,
      stepKeepsTheCountdown _ _ hs hcount hstep ((hhic _ hi).trans (hhic _ (by omega)).symm)⟩

/-- At `HINT` the countdown is 0 exactly on the lines of the period law (R146). -/
theorem State.CountdownFits.underflow_iff {s : State} (h : s.CountdownFits) (hs : s.Inv) (hp : s.seq.ph = .hint) :
    hicUnderflow s = true ↔ s.clock.vcounter.toNat % (s.io.hic.toNat + 1) = s.io.hic.toNat := by
  obtain ⟨ha, -⟩ := hs.at_hint hp
  rw [hicUnderflow_iff, h.before_hint ha (by simp [hp]) (by simp [State.inLastStep, State.stepping, hp])]
  have := Nat.mod_lt s.clock.vcounter.toNat (Nat.succ_pos s.io.hic.toNat)
  simp only [Nat.succ_eq_add_one] at this
  omega

/-- Settles O28: the countdown's law holds all along the run, and says when `HINT`, the one micro-operation that raises the
line, finds it 0. -/
theorem hblankPeriodOfEveryRun : Obligations.HblankPeriodOfEveryRun := by
  intro r n hr hinv hp hv hhic hplain
  have hr' : RunOf r n := fun i hi => hr i (by omega)
  obtain ⟨hs, hcount⟩ := runOf_keeps_countdown hr' hinv hp hv hhic n le_rfl
  have hstep := hr n (by omega)
  by_cases he : nextTurn (r n) = .engine
  · have hunder : (r n).seq.ph = .hint → (hicUnderflow (r n) = true ↔
        (r n).clock.vcounter.toNat % ((r 0).io.hic.toNat + 1) = (r 0).io.hic.toNat) := fun hph =>
      hhic n le_rfl ▸ hcount.underflow_iff hs hph
    rw [eq_of_step_engine he hstep, engineStep_count_raises]
    congr 1
    by_cases hph : (r n).seq.ph = .hint
    · simp [he, hph, hunder hph, and_comm]
    · simp [hph]
  · rw [if_neg fun h => he h.1]
    obtain hlog | ⟨pref, hlog⟩ := step_plain_log hplain he hstep <;>
      simp [State.trace, hlog, refreshEvent]

end Sys2Proof.Machine
end

section
/-! The commands of `HOST` and `MAINCPU`, one by one: when they are refused, what an admitted `POWER`, `DBGRD`, `DBGWR` or
`CFGWR` leaves, and the pseudo-operation `CFG` (R17, R63, R111, R171 to R176, R210 to R217). -/

namespace Sys2Proof.Machine

open Sys2Proof.Spec

/-! ### When a command is refused (R17, R183, R197) -/

theorem whenQuiescent_of_running (s : State) (r : Result) (h : s.powered = true) (hq : quiescent s = false) :
    whenQuiescent s r = .refused .notQuiescent := by
  simp [whenQuiescent, h, hq]

/-- Settles O12: every operation but `POWER` is guarded by `whenPowered`. -/
theorem onlyPowerBeforeTheFirstPower : Obligations.OnlyPowerBeforeTheFirstPower := by
  intro i s hs hi
  cases i with
  | power reset => exact absurd rfl (hi reset)
  | _ => exact whenPowered_of_unpowered s _ hs

/-- Settles O14: the commands of the two agents are guarded by `whenQuiescent`, and `POWER` tests the same. -/
theorem commandsRefusedWhileTheEngineRuns : Obligations.CommandsRefusedWhileTheEngineRuns := by
  intro i s hs hq hi
  cases i with
  | power reset =>
    change execPower reset s = _
    simp [execPower, hs, hq]
  | refresh pref => exact whenQuiescent_of_running s _ hs hq
  | dbgrd sp addr => exact whenQuiescent_of_running s _ hs hq
  | dbgwr sp addr data => exact whenQuiescent_of_running s _ hs hq
  | cfgwr fld val => exact whenQuiescent_of_running s _ hs hq
  | _ => simp [Instr.agent] at hi

/-! ### `POWER` (R210 to R217) -/

theorem doPower_trace (reset : Bool) (s : State) : (doPower reset s).trace = s.trace ++ powerHooks := by
  simp [State.trace]

/-- Settles O9: the post-state is `doPower`, its fields by their lemmas, its bytes by the kind of `POWER`. -/
theorem powerResetsTheBlock : Obligations.PowerResetsTheBlock := by
  intro reset s hs
  refine ⟨doPower reset s, exec_power_of_admitted reset s hs, rfl, rfl, rfl, rfl, rfl, rfl, rfl, rfl, rfl, fun sp a => ?_,
    rfl, doPower_trace reset s, rfl, rfl, rfl, rfl, rfl⟩
  cases reset
  · exact memRead_doPower_hard s sp a
  · exact memRead_doPower_soft s sp a

/-- After `POWER` the engine stands at the top of an active line, the first (R142). -/
theorem doPower_detectors (reset : Bool) (s : State) :
    activeLine (doPower reset s) = true ∧ atTop (doPower reset s) = true ∧ enteringBlank (doPower reset s) = false :=
  ⟨rfl, rfl, rfl⟩

/-- The events of the `PRE` after a `POWER`. -/
theorem preEvents_doPower (reset : Bool) (s : State) :
    preEvents (doPower reset s) = [.lineHook 0, .cpuLower .hblank, .apuSetInt false, .cpuLower .vblank] := rfl

/-- Settles O11: the state after `POWER`, and the `PRE` that the next step makes of it. -/
theorem powerAbandonsTheLine : Obligations.PowerAbandonsTheLine := by
  intro reset s _ hph hsched
  obtain ⟨hactive, htop, hblank⟩ := doPower_detectors reset s
  have hstep : step (doPower reset s) = .next (doPre (doPower reset s)) :=
    (step_of_nil (doPower reset s) hsched).trans (exec_pre_of_powered _ rfl)
  have hadmitted : PowerAdmitted s := .inr ((quiescent_iff s).2 (.inr hph))
  refine ⟨_, _, exec_power_of_admitted reset s hadmitted, doPower_trace reset s, rfl, hstep, ?_, ?_, ?_, ?_⟩
  · rw [doPre_seq, hactive]; rfl
  · rw [doPre_clock, hactive]; rfl
  · rw [doPre_irq, htop, hblank]; rfl
  · rw [doPre_trace, preEvents_doPower]

/-- Settles O13: every field of the block is written, and every other has the value of the reset state already. -/
theorem resetIsAHardPowerOn : Obligations.ResetIsAHardPowerOn := by
  intro s hpowered hlog hcpu hapu hbuf hseen hsaw hport hsched hfree
  rw [exec_power_of_admitted false s (.inl hpowered)]
  obtain ⟨_, _, _, _, _, ⟨_, _, _⟩, _, _, _, _, _, _, _, _, _, _, _⟩ := s
  subst hlog hcpu hapu hbuf hseen hsaw hport hsched hfree
  rfl

/-! ### `DBGRD` and `DBGWR` (R171 to R174) -/

theorem exec_dbgrd_of_admitted (sp : Space) (addr : Word) (s : State) (h : CommandAdmitted s) :
    exec (.dbgrd sp addr) s = .next { s with dbgRdata := memRead s.stores sp addr } :=
  whenQuiescent_of_quiescent s _ h.1 h.2

/-- A byte in range, as half of its word (R63). -/
theorem memRead_of_lt (st : Stores) (sp : Space) (addr : Word) (h : addr.toNat < Space.limit sp) :
    memRead st sp addr =
      if addr.toNat % 2 = 0 then hiByte (Memory.word (st.get sp) (addr.toNat / 2))
      else loByte (Memory.word (st.get sp) (addr.toNat / 2)) := by
  simp only [memRead, Nat.not_le.2 h, if_false, wordIndex_eq, ← isEvenAddr_iff]

theorem memRead_of_le (st : Stores) (sp : Space) (addr : Word) (h : Space.limit sp ≤ addr.toNat) :
    memRead st sp addr = 0 := by
  rw [memRead_eq, if_neg (Nat.not_lt.2 h)]

/-- Settles O15: the answer is the window access `memRead`, as a half of the addressed word. -/
theorem dbgrdAnswersTheByte : Obligations.DbgrdAnswersTheByte := by
  intro sp addr s hs
  refine ⟨_, exec_dbgrd_of_admitted sp addr s hs, memRead_of_le _ _ _, fun hin heven => ?_, fun hin hodd => ?_⟩
  · rw [memRead_of_lt _ _ _ hin, if_pos heven, hiByte]
  · rw [memRead_of_lt _ _ _ hin, if_neg (by omega), loByte]

/-- Settles O17: both answers are reads after the write, which `memRead_memWrite` gives at every address. -/
theorem debugRoundTrip : Obligations.DebugRoundTrip := by
  intro sp a v s hs
  have hother (sp' : Space) (b : Word) (h : (sp', b) ≠ (sp, a)) :
      memRead (memWrite s.stores sp a v) sp' b = memRead s.stores sp' b := by
    rw [memRead_memWrite, if_neg]
    rintro ⟨-, rfl, rfl⟩
    exact h rfl
  have hneighbour : (sp, a ^^^ 1) ≠ (sp, a) := by simp
  refine ⟨_, exec_dbgwr_of_admitted sp a v s hs, ⟨_, exec_dbgrd_of_admitted sp a _ hs, ?_⟩, hother, fun _ =>
    ⟨_, exec_dbgrd_of_admitted sp (a ^^^ 1) _ hs, hother sp (a ^^^ 1) hneighbour⟩, fun hout => ?_⟩
  · show memRead (memWrite s.stores sp a v) sp a = _
    rw [memRead_memWrite]
    split
    · next hin => rw [if_pos hin.1]
    · next hout =>
      have hle : Space.limit sp ≤ a.toNat := by simpa using hout
      rw [if_neg (Nat.not_lt.2 hle), memRead_of_le _ _ _ hle]
  · rw [memWrite_out_of_range _ _ _ _ hout]

/-! ### `CFGWR` and `CFG` (R111, R176) -/

theorem exec_cfgwr_of_admitted (fld : CfgField) (val : Byte) (s : State) (h : CommandAdmitted s)
    (hfits : fld.fits val = true) :
    exec (.cfgwr fld val) s =
      .next { s with io := Io.write s.io fld val, seen := seenAfterCfgwr fld val s.seen } :=
  (whenQuiescent_of_quiescent s _ h.1 h.2).trans (if_pos hfits)

/-- The two values of a one-bit field (R99). -/
theorem eq_zero_or_one {val : Byte} (h : val.toNat ≤ 1) : val = 0 ∨ val = 1 := by
  simp only [← BitVec.toNat_inj]
  exact Nat.le_one_iff_eq_zero_or_eq_one.1 h

theorem ite_bitOf (val : Byte) (h : val.toNat ≤ 1) : (if bitOf val then (1 : Byte) else 0) = val := by
  obtain rfl | rfl := eq_zero_or_one h <;> rfl

theorem read_write_same (io : Io) (fld : CfgField) (val : Byte) (h : fld.fits val = true) :
    Io.read (Io.write io fld val) fld = val := by
  cases fld with
  | hic => rfl
  | _ => exact ite_bitOf val (((fits_iff _ val).1 h).resolve_left (by decide))

theorem read_write_of_ne (io : Io) (fld g : CfgField) (val : Byte) (h : g ≠ fld) :
    Io.read (Io.write io fld val) g = Io.read io g := by
  cases fld <;> cases g <;> trivial

theorem bitOf_eq_decide (val : Byte) (h : val.toNat ≤ 1) : bitOf val = decide (val = 1) := by
  obtain rfl | rfl := eq_zero_or_one h <;> rfl

/-- Settles O19: the fields of the snapshot after the write, read back one by one. -/
theorem cfgwrWritesOneField : Obligations.CfgwrWritesOneField := by
  intro fld val s hs
  refine ⟨fun hval => ?_, fun hfld hval => ?_⟩
  · have hfits := (fits_iff fld val).2 hval
    refine ⟨_, _, exec_cfgwr_of_admitted fld val s hs hfits, read_write_same _ _ _ hfits,
      fun g hg => read_write_of_ne _ _ _ _ hg, fun hne => ?_, fun hflag => ?_⟩
    · cases fld <;> trivial
    · subst hflag
      rw [seenAfterCfgwr, bitOf_eq_decide val (hval.resolve_left (by decide))]
  · have hunfit : ¬ fld.fits val = true := by
      rw [fits_iff]
      exact not_or.2 ⟨hfld, Nat.not_le.2 hval⟩
    exact (whenQuiescent_of_quiescent s _ hs.1 hs.2).trans (if_neg hunfit)

theorem toNat_ite_le_one (b : Bool) : (if b then (1 : Byte) else 0).toNat ≤ 1 := by
  cases b <;> decide

theorem fits_read (io : Io) (fld : CfgField) : fld.fits (Io.read io fld) = true := by
  rw [fits_iff]
  cases fld with
  | hic => exact .inl rfl
  | _ => exact .inr (toNat_ite_le_one _)

/-- Writing the value a field holds in another snapshot. -/
theorem execAll_cfgwr (fld : CfgField) (io : Io) (is : List Instr) (s : State) (h : CommandAdmitted s) :
    execAll (.cfgwr fld (Io.read io fld) :: is) s =
      execAll is
        { s with io := Io.write s.io fld (Io.read io fld), seen := seenAfterCfgwr fld (Io.read io fld) s.seen } := by
  rw [execAll, exec_cfgwr_of_admitted fld _ s h (fits_read io fld)]
  rfl

@[simp] theorem bitOf_ite (b : Bool) : bitOf (if b then 1 else 0) = b := by
  cases b <;> rfl

/-- Settles O20: the expansion is six admitted `CFGWR`s, each of a value that fits, and together they write every field. -/
theorem cfgExpansionSetsTheSnapshot : Obligations.CfgExpansionSetsTheSnapshot := by
  intro w io s hs hw
  refine ⟨_, _, _, _, _, _, by rw [cfgCommands, hw]; rfl, ?_⟩
  iterate 6 rw [execAll_cfgwr _ io _ _ (by exact hs)]
  simp only [execAll, Io.write, Io.read, seenAfterCfgwr, bitOf_ite]

end Sys2Proof.Machine
end

section
/-! The micro-operations of the engine, one by one (R130 to R133, R140 to R145, R152 to R159): what each leaves in every
register, where the collaborators write (U10), who may write what (R198), and what a step runs (R17, R98). -/

namespace Sys2Proof.Machine

open Sys2Proof.Spec

/-! ### The geometry (R121 to R124) -/

/-- Settles O31: the values by the two latch bits, and none of the functions mentions `io`. -/
theorem geometryReadsTheLatches : Obligations.GeometryReadsTheLatches :=
  fun s => ⟨rfl, rfl, activeWidth_mul_pixelWidth s, fun _ => ⟨rfl, rfl, rfl, rfl⟩⟩

/-- Settles O32: `frameHeightOf` folds the open choice into this range. -/
theorem frameTallerThanScreen : Obligations.FrameTallerThanScreen :=
  fun f o => ⟨(frameHeightOf_bounds f o).1, (frameHeightOf_bounds f o).2.trans_lt (by decide)⟩

/-! ### What a step runs -/

/-- Settles O7: the head of the schedule names the turn (`step_cons`), and a word's turn runs what it decodes to. -/
theorem stepRunsTheDecodedOperation : Obligations.StepRunsTheDecodedOperation := by
  have hcmd (s : State) (w : CmdWord) (i : Instr) (rest : List Turn) (h : decodeCmd w = .ok i) :
      step { s with schedule := .command w :: rest } = exec i { s with schedule := rest } := by
    rw [step_cons, runTurn, h]
    rfl
  have huop (s : State) (w : UopWord) (i : Instr) (rest : List Turn) (h : decodeUop w = .ok i) :
      step { s with schedule := .micro w :: rest } = exec i { s with schedule := rest } := by
    rw [step_cons, runTurn, h]
    rfl
  have htoInstr (d : Except Reject Instr) (i : Instr) (h : Except.toInstr? d = some i) : d = .ok i := by
    cases d <;> cases h
    rfl
  refine ⟨step_of_nil, fun s rest => rfl, hcmd, huop, fun s nbits w i h => ?_⟩
  unfold decodeTableWord at h
  unfold State.withFetchWord pushWord
  split at h
  · next hbits => rw [if_pos hbits]; exact huop s _ i s.schedule (htoInstr _ _ h)
  · next hbits => rw [if_neg hbits]; exact hcmd s _ i s.schedule (htoInstr _ _ h)

/-! ### Every micro-operation completes -/

/-- What each micro-operation makes of the state (R100, R130 to R133, R140, R145, R152 to R156). -/
def microOp (i : Instr) (s : State) : State :=
  match i with
  | .pre => doPre s
  | .dot => doDot s
  | .hint => doHint s
  | .tick => doTick s
  | .sync => doSync s
  | .endLine => doEnd s
  | .step clocks => enterStep clocks (stepReturn s.seq.ph) s
  | .tail => enterStep Config.lineTail .endLine s
  | .blank => enterStep Config.lineBlank .endLine s
  | _ => s

theorem exec_of_engine (i : Instr) (s : State) (hi : i.agent = .engine) :
    exec i s = whenPowered s (.next (microOp i s)) := by
  cases i with
  | pre => rfl
  | dot => rfl
  | hint => rfl
  | tick => rfl
  | sync => rfl
  | endLine => rfl
  | step clocks => rfl
  | tail => rfl
  | blank => rfl
  | _ => cases hi

theorem exec_engine_of_powered (i : Instr) (s : State) (hi : i.agent = .engine) (h : s.powered = true) :
    exec i s = .next (microOp i s) :=
  (exec_of_engine i s hi).trans (whenPowered_of_powered _ _ h)

/-! ### `PRE` and `HINT` (R140 to R145) -/

theorem preBlank_hcounter (s : State) (ha : activeLine s = false) (h : s.clock.hcounter.toNat + 1710 < 65536) :
    (doPre s).clock.hcounter.toNat = s.clock.hcounter.toNat + 1710 := by
  rw [doPre_clock, if_neg (by simp [ha]), addCounter_toNat _ _ h]

/-- A level that `PRE` lowers at the top and raises at the entry of blanking, in the words of R142 and R143. -/
theorem preLevel_eq (s : State) (b : Bool) :
    (if atTop s then false else (enteringBlank s && s.io.vbie) || b) =
      if s.clock.vcounter.toNat = 0 then false
      else if s.clock.vcounter.toNat = screenHeight s ∧ s.io.vbie = true then true else b := by
  simp only [← atTop_iff, ← enteringBlank_iff, ← Bool.and_eq_true]
  split
  · rfl
  · cases enteringBlank s && s.io.vbie <;> simp

/-- Settles O23: the fields of `doPre`, its two conditions in the words of R142 and R143. -/
theorem preUpdatesAndDispatches : Obligations.PreUpdatesAndDispatches := by
  intro s hs
  have hactive : ¬ activeLine s = true ↔ screenHeight s ≤ s.clock.vcounter.toNat := by rw [activeLine_iff, not_lt]
  refine ⟨doPre s, exec_pre_of_powered s hs, doPre_trace s, ?_, ?_, ?_, fun hv => ?_, fun hv => ?_, doPre_time s, ?_⟩
  · rw [doPre_irq, preLevel_eq]
    simp only [enteringBlank]
    rfl
  · rw [doPre_io, preLevel_eq]
  · rw [doPre_latch]
    simp only [← atTop_iff]
    cases atTop s <;> rfl
  · rw [← activeLine_iff] at hv
    rw [doPre_seq, doPre_clock, if_pos hv, if_pos hv]
    exact ⟨rfl, rfl⟩
  · have ha : activeLine s = false := by simpa using hactive.2 hv
    refine ⟨by rw [doPre_seq, ha]; rfl, by simp only [doPre_clock, ha, Bool.false_eq_true, if_false], preBlank_hcounter s ha, ?_⟩
    simp [EngineFrame, doPre_stores, doPre_outbuf, ha]
  · simp [EngineFrame]

/-- Settles O25: the fields of `doHint`, with and without underflow. -/
theorem hintCountsDown : Obligations.HintCountsDown := by
  intro s hs
  have hunder : hicUnderflow s = true ↔ s.latch.hic = 0 := beq_iff_eq
  have hcomplete : exec .hint s = .next (doHint s) := whenPowered_of_powered _ _ hs
  refine ⟨doHint s, hcomplete, fun h => ?_, fun h => ?_, fun h => ?_, fun h => ?_, doHint_seq s, ?_,
    fun h => ?_, doHint_io s, doHint_time s, by simp [EngineFrame]⟩
  · rw [doHint_latch, if_pos (hunder.2 h)]
  · refine ⟨s.latch.hic - 1, by rw [doHint_latch, if_neg (mt hunder.1 h)], ?_⟩
    have hpos : s.latch.hic.toNat ≠ 0 := mt (BitVec.toNat_inj (y := 0)).1 h
    exact BitVec.toNat_sub_of_le (by rw [BitVec.le_def]; exact Nat.one_le_iff_ne_zero.2 hpos)
  · rw [State.trace, doHint_irq, doHint_log, hunder.2 h.1, h.2]
    exact ⟨rfl, List.reverse_cons⟩
  · have hlow : ¬ (hicUnderflow s && s.io.hbie) = true := by rwa [Bool.and_eq_true, hunder]
    rw [State.trace, doHint_irq, doHint_log, if_neg hlow, if_neg hlow]
    exact ⟨rfl, rfl⟩
  · rw [doHint_clock]
  · rw [doHint_clock, addCounter_toNat _ _ h]

/-! ### `STEP`, `TAIL` and `BLANK` (R130, R153, R154) -/

theorem stepReturn_ne_pre (p : Phase) : stepReturn p = .dot ∨ stepReturn p = .endLine := by
  cases p with
  | pre => exact .inr rfl
  | dot => exact .inl rfl
  | hint => exact .inr rfl
  | _ => exact ite_eq_or_eq _ _ _

/-- Settles O33: the entry action `enterStep`, with the return phase of the caller. -/
theorem stepEntry : Obligations.StepEntry := by
  intro clocks s hs
  refine ⟨enterStep clocks (stepReturn s.seq.ph) s, stepReturn s.seq.ph, whenPowered_of_powered _ _ hs,
    stepReturn_ne_pre _, fun hp => by rw [hp]; rfl, fun hp => ?_, rfl, rfl, fun h => addCounter_toNat _ _ h, rfl, rfl, rfl,
    rfl, rfl, by simp [EngineFrame]⟩
  obtain hp | hp := hp <;> rw [hp] <;> rfl

/-- Settles O34: both are the entry action `enterStep` returning to `END`. -/
theorem tailAndBlankEntry : Obligations.TailAndBlankEntry := by
  intro s hs p hp
  have hexec : exec p.1 s = .next (enterStep p.2 .endLine s) ∧ 0 < p.2.toNat := by
    obtain rfl | rfl : p = (.tail, 430) ∨ p = (.blank, 1710) := by simpa using hp
    · exact ⟨whenPowered_of_powered _ _ hs, by decide⟩
    · exact ⟨whenPowered_of_powered _ _ hs, by decide⟩
  obtain ⟨hexec, hpos⟩ := hexec
  refine ⟨_, hexec, by simp [hpos], rfl, fun h => addCounter_toNat _ _ h, rfl, rfl, rfl, rfl, rfl, by simp [EngineFrame]⟩

/-! ### `TICK` and `SYNC` (R132, R133) -/

/-- Settles O35: the fields of `doTick`. -/
theorem tickAdvancesOneClock : Obligations.TickAdvancesOneClock := by
  intro s hs
  refine ⟨doTick s, whenPowered_of_powered _ _ hs, ?_, rfl, rfl, rfl, rfl, rfl, rfl, by simp [EngineFrame]⟩
  simp [State.trace]

/-- The barrier of R133 in the units of R134. -/
theorem barrierOpen_iff (s : State) :
    barrierOpen s = true ↔
      s.time.vdp * 2 * fCpu ≤ s.time.cpu * fSys ∧ s.time.vdp * 2 * fApu ≤ s.time.apu * fSys := by
  simp only [barrierOpen, Bool.and_eq_true, caughtUp_iff, Config.clockDiv]

theorem passBarrier_trace (s : State) : (passBarrier s).trace = s.trace ++ [.synced] := by
  simp [State.trace]

/-- Settles O36: `doSync` is `passBarrier` or nothing, by the barrier. -/
theorem syncPassesOrHolds : Obligations.SyncPassesOrHolds := by
  intro s hs
  have hexec : exec .sync s = .next (doSync s) := whenPowered_of_powered _ _ hs
  rw [← barrierOpen_iff, hexec]
  refine ⟨fun hopen => ⟨passBarrier s, by rw [doSync, if_pos hopen], passBarrier_trace s, decRem_toNat _, rfl,
    fun hrem => ?_, fun hrem => ?_, rfl, rfl, rfl, rfl, rfl, rfl, by simp [EngineFrame]⟩, fun hclosed => ?_⟩
  · exact if_pos hrem
  · exact if_neg (Nat.pos_iff_ne_zero.not_left.2 hrem)
  · rw [doSync, if_neg hclosed]

/-! ### `DOT` and `END` (R152, R156 to R159) -/

theorem doDot_trace (s : State) :
    (doDot s).trace = if s.clock.hcounter.toNat < 1280 then s.trace ++ [.renderRun] else s.trace := by
  rw [State.trace, doDot_log]
  split
  · exact List.reverse_cons
  · rfl

/-- Settles O42: the fields of `doDot` on both sides of the end of the dot loop. -/
theorem dotPassOrFallThrough : Obligations.DotPassOrFallThrough := by
  intro s hs
  refine ⟨doDot s, whenPowered_of_powered _ _ hs, fun hlt => ?_, fun hge => ?_, doDot_latch s, doDot_io s, doDot_irq s,
    doDot_time s, by simp [EngineFrame]⟩
  · have := pixelWidth_le s
    rw [doDot_trace, doDot_seq, doDot_clock, if_pos hlt, if_pos hlt, if_pos hlt]
    exact ⟨rfl, rfl, pixelWidth_clocks s, rfl, addCounter_toNat _ _ (by omega), addCounter_toNat _ _, rfl, rfl⟩
  · have hnot := Nat.not_lt.2 hge
    rw [doDot_trace, doDot_seq, doDot_clock, if_neg hnot, if_neg hnot, if_neg hnot]
    exact ⟨rfl, rfl, rfl, by simp [EngineFrame, doDot_stores, doDot_outbuf, hnot]⟩

theorem frameWraps_iff (s : State) : frameWraps s = true ↔ frameHeight s ≤ s.clock.vcounter.toNat + 1 :=
  decide_eq_true_iff

/-- Settles O43: the fields of `doEnd`, inside the frame and at its wrap. -/
theorem endAdvancesTheLine : Obligations.EndAdvancesTheLine := by
  intro s hs
  refine ⟨doEnd s, whenPowered_of_powered _ _ hs, ?_, ?_, fun hwrap => ?_, fun hin => ?_, by rw [doEnd_latch],
    by rw [doEnd_latch], doEnd_seq s, doEnd_io s, doEnd_irq s, by simp [State.trace], doEnd_time s, by simp [EngineFrame]⟩
  · rw [doEnd_clock]; split <;> rfl
  · rw [doEnd_clock]; split <;> rfl
  · rw [doEnd_clock, doEnd_latch, (frameWraps_iff s).2 hwrap]
    exact ⟨rfl, rfl, rfl⟩
  · have hnot : frameWraps s = false := by simpa [frameWraps] using hin
    rw [doEnd_vcounter_toNat, doEnd_clock, doEnd_latch, hnot]
    exact ⟨rfl, rfl, rfl⟩

/-! ### The memories (R198, U10) -/

/-- The memories after a micro-operation are those before it with the writes of its call. -/
theorem microOp_memory (i : Instr) (s : State) :
    (microOp i s).stores = writeBytes (storeWrites i s) s.stores ∧
      (microOp i s).outbuf = writePixels (pixelWrites i s) s.outbuf := by
  cases i with
  | pre =>
    simp only [microOp, storeWrites, pixelWrites, doPre_stores, doPre_outbuf]
    cases activeLine s <;> exact ⟨rfl, rfl⟩
  | dot =>
    simp only [microOp, storeWrites, pixelWrites, doDot_stores, doDot_outbuf]
    split <;> exact ⟨rfl, rfl⟩
  | hint => exact ⟨doHint_stores s, doHint_outbuf s⟩
  | sync =>
    simp only [microOp, doSync]
    split <;> exact ⟨rfl, rfl⟩
  | endLine => exact ⟨doEnd_stores s, doEnd_outbuf s⟩
  | tick => exact ⟨doTick_stores s, rfl⟩
  | _ => simp [microOp, storeWrites, pixelWrites, writeBytes, writePixels]

/-- Settles O37: the memories by `microOp_memory`, and what none of the writes names by the laws of the writes. -/
theorem collaboratorCalls : Obligations.CollaboratorCalls := by
  intro i s hi hs
  obtain ⟨hst, hbuf⟩ := microOp_memory i s
  refine ⟨microOp i s, exec_engine_of_powered i s hi hs, hst, hbuf, fun sp a h => ?_, fun n h => ?_⟩
  · rw [hst, memRead_writeBytes _ _ _ _ h]
  · rw [hbuf, read_writePixels _ _ _ h]

/-! ### Run control repeats the engine's own (R112) -/

/-- Settles O38: at `SYNC` the barrier is open after the siblings' advance, and elsewhere the two are the same. -/
theorem runControlRefinesTheEngine : Obligations.RunControlRefinesTheEngine := by
  intro s hs
  refine ⟨fun hp => ?_, fun hp => ?_⟩
  · rw [exec_phase_instr, whenPowered_of_powered _ _ hs, engineStep, coopStep]
    cases hph : s.seq.ph with
    | sync => exact absurd hph hp
    | _ => rfl
  · have hpass : exec .sync (cooperate s) = .next (passBarrier (cooperate s)) := by
      rw [show exec .sync (cooperate s) = .next (doSync (cooperate s)) from whenPowered_of_powered _ _ hs, doSync,
        if_pos (barrierOpen_cooperate s)]
    rw [coopStep_of_sync s hp]
    exact ⟨_, _, _, (le_max_left _ _).trans (Nat.le_add_right _ _), (le_max_left _ _).trans (Nat.le_add_right _ _), hpass,
      passBarrier_trace (cooperate s)⟩

end Sys2Proof.Machine
end

section
/-! `REFRESH` and its window (R165 to R169), and the other agents' turns: what they change, what the siblings see, and a hold
that lasts or is lifted (R16, R17, R77, R181, R182, R189). -/

namespace Sys2Proof.Machine

open Sys2Proof.Spec

/-! ### `REFRESH` (R165 to R169) -/

theorem exec_refresh_next (pref : Bool) (s t : State) :
    exec (.refresh pref) s = .next t ↔
      s.powered = true ∧ quiescent s = true ∧ t = emit (refreshEvent pref s) s := by
  change whenQuiescent s _ = _ ↔ _
  rw [whenQuiescent_next, Host.Outcome.next.injEq, eq_comm (b := t)]

/-- Settles O48: the event of `execRefresh`, its pointer and height by the preference and the latch. -/
theorem refreshSelectsTheWindow : Obligations.RefreshSelectsTheWindow := by
  intro pref s hs hcursor
  refine ⟨_, refreshPtr pref s, refreshHeight pref, (exec_refresh_next pref s _).2 ⟨hs.1, hs.2, rfl⟩, trace_emit _ _, rfl,
    fun hp => ?_, fun hp => ?_, fun hp ho => ?_, fun hp ho => ?_, fun hp => ?_⟩
  · rw [hp]; rfl
  · rw [hp]; rfl
  · simp [refreshPtr, hp, ho, hcursor, Config.margin]
  · simp [refreshPtr, hp, ho, hcursor, cursorBack, Config.margin]
  · subst hp
    cases ho : s.latch.overscan <;> simp [refreshPtr, ho, hcursor]

/-- The window ends inside the buffer (R167): the forward margin is only taken with the lower height. -/
theorem refreshWindow_le (pref : Bool) (s : State) (h : s.output = 20480) :
    refreshPtr pref s + refreshHeight pref * Config.stride ≤ bufCap := by
  cases pref <;> cases ho : s.latch.overscan <;>
    simp [refreshPtr, refreshHeight, cursorBack, bufCap, outHTall, Config.margin, Config.marginRows, Config.stride, ho, h] <;>
    omega

theorem sinkPixel_eq_some (pref : Bool) (s : State) (row col : Nat) (v : BitVec 32) :
    sinkPixel pref s row col = some v ↔
      (s.powered = true ∧ quiescent s = true ∧ row < refreshHeight pref ∧ col < 1280) ∧
        Pixels.read s.outbuf (refreshPtr pref s + row * 1280 + col) = v := by
  simp only [sinkPixel, windowIndex, Option.ite_none_right_eq_some, Option.some.injEq, Bool.and_eq_true,
    decide_eq_true_eq, and_assoc]
  rfl

/-- Settles O49: the end of the window by `refreshWindow_le`, what the sink reads by `sinkPixel_eq_some`. -/
theorem refreshWindowInsideTheBuffer : Obligations.RefreshWindowInsideTheBuffer := by
  intro pref s hcursor
  have hle := refreshWindow_le pref s hcursor
  refine ⟨hle, fun row col => ⟨?_, fun hr hc => ?_, fun v hv => ?_, fun t ht => ?_⟩⟩
  · simp only [Option.isSome_iff_exists, sinkPixel_eq_some, exists_and_left, exists_eq', and_true, exec_refresh_next,
      exists_eq, and_assoc]
  · have : (row + 1) * 1280 ≤ refreshHeight pref * 1280 := Nat.mul_le_mul_right 1280 hr
    simp only [Config.stride] at hle
    omega
  · exact ((sinkPixel_eq_some pref s row col v).1 hv).2.symm
  · rw [((exec_refresh_next pref s t).1 ht).2.2, emit_outbuf]

/-- Settles O50: the event reads the cursor and the latch. -/
theorem refreshIgnoresTheLiveConfiguration : Obligations.RefreshIgnoresTheLiveConfiguration := by
  intro pref s t io ht
  obtain ⟨hp, hq, rfl⟩ := (exec_refresh_next pref s t).1 ht
  exact (exec_refresh_next pref _ _).2 ⟨hp, hq, rfl⟩

/-! ### The turns of the siblings' domains (R16, R17) -/

theorem whenYielding_of_running (s : State) (r : Result) (h : s.powered = true) (hq : quiescent s = false) :
    whenYielding s r = .refused .notYielding := by
  simp [whenYielding, h, hq]

/-- Settles O51: each turn is guarded by `whenYielding`. -/
theorem environmentTurns : Obligations.EnvironmentTurns := by
  intro s rest hs
  have hrun (hq : quiescent s = true) (r : Result) : whenYielding { s with schedule := rest } r = r :=
    whenYielding_of_quiescent _ r hs hq
  refine ⟨fun hq => ⟨fun n => hrun hq _, fun n => hrun hq _, hrun hq _, fun sp a v =>
    ⟨memWrite s.stores sp a v, hrun hq _, fun sp' b => ?_⟩, fun b => hrun hq _⟩, fun hq n m sp a v b turn hturn => ?_⟩
  · simp only [memRead_memWrite, Prod.mk.injEq]
  · have hstop (r : Result) : whenYielding { s with schedule := rest } r = .refused .notYielding :=
      whenYielding_of_running _ r hs hq
    rw [step_cons]
    simp only [List.mem_cons, List.not_mem_nil, or_false] at hturn
    obtain rfl | rfl | rfl | rfl | rfl | rfl | rfl := hturn <;> exact hstop _

/-! ### What the siblings see (R77, R131, R189) -/

/-- The engine makes its writes visible by passing a `SYNC` and in no other way. -/
theorem engineStep_seen (s : State) :
    (engineStep s).seen = if s.seq.ph = .sync ∧ barrierOpen s = true then viewOf s else s.seen := by
  unfold engineStep
  cases hp : s.seq.ph with
  | sync =>
    simp only [doSync, true_and]
    split <;> rfl
  | _ => simp

/-- Of the commands other than `POWER` and run control only a `CFGWR` of the flag changes what can be seen (R38). -/
theorem exec_command_seen {i : Instr} {s t : State} (hi : i.agent = .host ∨ i.agent = .mainCpu)
    (hpower : ∀ reset, i ≠ .power reset) (h : exec i s = .next t) :
    t.seen = s.seen ∨ t.seen = { s.seen with cpu := { s.seen.cpu with vblankIRQ := t.io.vblankIRQ } } := by
  cases i with
  | power reset => exact absurd rfl (hpower reset)
  | refresh pref => rw [eq_of_whenQuiescent_next h]; exact .inl rfl
  | dbgrd sp addr => rw [eq_of_whenQuiescent_next h]; exact .inl rfl
  | dbgwr sp addr data => rw [eq_of_whenQuiescent_next h]; exact .inl rfl
  | cfgwr fld val =>
    rw [eq_of_exec_cfgwr h]
    cases fld with
    | vblankIRQ => exact .inr rfl
    | _ => exact .inl rfl
  | _ => simp [Instr.agent] at hi

theorem step_plain_seen {s t : State} (hp : plainTurn (nextTurn s)) (he : nextTurn s ≠ .engine) (hs : step s = .next t) :
    t.seen = s.seen ∨ t.seen = { s.seen with cpu := { s.seen.cpu with vblankIRQ := t.io.vblankIRQ } } := by
  by_cases hc : ∃ w, nextTurn s = .command w
  · obtain ⟨w, hn⟩ := hc
    obtain ⟨i, hi, hpower, hexec⟩ := step_plain_command s t w hn (hn ▸ hp) hs
    exact exec_command_seen (s := popTurn s) hi hpower hexec
  · have hm : ∀ w, nextTurn s ≠ .micro w := fun w hn => by rwa [hn] at hp
    obtain ⟨-, -, -, -, -, -, -, -, -, -, -, -, hseen, -⟩ :=
      runTurn_sibling_frame (nextTurn s) (popTurn s) t (by cases hn : nextTurn s <;> simp_all) hs
    exact .inl hseen

/-- Settles O52: a look copies `cpuReads` or the visible level, the engine's turn shows what `engineStep_seen` says, and
every other plain turn at most the flag. -/
theorem siblingsSeeAtTheBarrier : Obligations.SiblingsSeeAtTheBarrier := by
  refine ⟨fun s rest hs hq => ?_, fun s t hn hstep => ?_, fun s t hp he hstep => ?_⟩
  · have hrun (r : Result) : whenYielding { s with schedule := rest } r = r := whenYielding_of_quiescent _ r hs hq
    refine ⟨⟨cpuReads s, hrun _, rfl, rfl, rfl, rfl, rfl, rfl, fun hp => ?_, fun hp => ?_⟩, hrun _⟩
    · rw [cpuReads_at_sync s hp]
    · rw [cpuReads_elsewhere s (by simp [hp])]
  · have hseen : t.seen = if s.seq.ph = .sync ∧ barrierOpen s = true then viewOf s else s.seen :=
      eq_of_step_engine hn hstep ▸ engineStep_seen (popTurn s)
    split
    · next hpass => rw [hseen, if_pos hpass]; exact ⟨rfl, rfl⟩
    · next hhold => rw [hseen, if_neg hhold]
  · obtain hseen | hseen := step_plain_seen hp he hstep
    · rw [hseen]
      exact ⟨rfl, fun h => absurd rfl h⟩
    · rw [hseen]
      exact ⟨rfl, fun _ => rfl⟩

/-! ### Holds (R181, R182) -/

theorem step_of_stuck (s : State) (h : s.Stuck) : step s = .next s := by
  obtain ⟨hold, hsched⟩ := h
  simp only [State.holding, Bool.and_eq_true, beq_iff_eq, Bool.not_eq_true'] at hold
  obtain ⟨⟨hpowered, hph⟩, hclosed⟩ := hold
  rw [step_of_nil s hsched, exec_phase_instr, whenPowered_of_powered _ _ hpowered, engineStep, hph]
  simp [doSync, hclosed]

/-- Settles O53: a stuck state steps to itself. -/
theorem stuckForEver : Obligations.StuckForEver := by
  intro s hs k
  induction k with
  | zero => rfl
  | succ k ih =>
    refine (core_run_succ k s).trans ?_
    rw [step_of_stuck s hs]
    exact ih

/-- The engine alone passes an open barrier. -/
theorem step_of_open {s : State} (hpowered : s.powered = true) (hph : s.seq.ph = .sync) (hsched : s.schedule = [])
    (hopen : barrierOpen s = true) : step s = .next (passBarrier s) := by
  rw [step_of_nil s hsched, exec_phase_instr, whenPowered_of_powered _ _ hpowered, engineStep, hph]
  simp [doSync, hopen]

/-- The two siblings' times moved on, and nothing more to come. -/
def advanced (s : State) (n m : Nat) : State :=
  { s with schedule := [], time := { s.time with cpu := s.time.cpu + n, apu := s.time.apu + m } }

/-- Advances that reach the least times at which the siblings have caught up open the barrier (R134). -/
theorem barrierOpen_advanced (s : State) (n m : Nat) (hn : leastCaughtUp fCpu s ≤ n) (hm : leastCaughtUp fApu s ≤ m) :
    barrierOpen (advanced s n m) = true := by
  have hcpu : leastCaughtUp fCpu (advanced s n m) ≤ s.time.cpu + n := hn.trans (Nat.le_add_left _ _)
  have hapu : leastCaughtUp fApu (advanced s n m) ≤ s.time.apu + m := hm.trans (Nat.le_add_left _ _)
  exact Bool.and_eq_true_iff.2 ⟨(caughtUp_iff_least _ _ _).2 hcpu, (caughtUp_iff_least _ _ _).2 hapu⟩

/-- Settles O54: each sibling advances by the least time at which it has caught up. -/
theorem siblingsLiftTheHold : Obligations.SiblingsLiftTheHold := by
  intro s hold
  simp only [State.holding, Bool.and_eq_true, beq_iff_eq] at hold
  obtain ⟨⟨hpowered, hph⟩, -⟩ := hold
  have hq : quiescent s = true := (quiescent_iff s).2 (.inr hph)
  generalize hn : leastCaughtUp fCpu s = n
  generalize hm : leastCaughtUp fApu s = m
  have hcpu := ((environmentTurns s [.apuTime m] hpowered).1 hq).1 n
  have hapu := ((environmentTurns { s with time := { s.time with cpu := s.time.cpu + n } } [] hpowered).1 hq).2.1 m
  have hsync : step (advanced s n m) = .next (passBarrier (advanced s n m)) :=
    step_of_open hpowered hph rfl (barrierOpen_advanced s n m hn.le hm.le)
  refine ⟨n, m, passBarrier (advanced s n m), ?_, passBarrier_trace _, rfl, rfl⟩
  refine (core_run_succ 2 _).trans ?_
  rw [hcpu]
  refine (core_run_succ 1 _).trans ?_
  rw [hapu]
  refine (core_run_succ 0 _).trans ?_
  change andThen (step (advanced s n m)) _ = _
  rw [hsync]
  rfl

end Sys2Proof.Machine
end

section
/-! Who writes what, operation by operation (R36, R198), and what a plain turn leaves of the registers: the premise of the
rendering collaborator (R163) and the law of a `STEP` in every run (R135). -/

namespace Sys2Proof.Machine

open Sys2Proof.Spec

/-! ### What every micro-operation keeps, run control keeps -/

/-- One cooperating micro-operation is the engine's, at `SYNC` after the siblings' advance (R112). -/
theorem coopStep_eq_microOp (s : State) :
    coopStep s = microOp s.seq.ph.instr (if s.seq.ph = .sync then cooperate s else s) := by
  unfold coopStep
  cases hp : s.seq.ph with
  | sync => simp [microOp, Phase.instr, doSync, barrierOpen_cooperate]
  | _ => rfl

theorem phase_instr_agent (p : Phase) : p.instr.agent = .engine := by
  cases p <;> rfl

theorem coopStep_keeps {P : State → Prop} (hmicro : ∀ i s, i.agent = .engine → P s → P (microOp i s))
    (hcoop : ∀ s, P s → P (cooperate s)) (s : State) (h : P s) : P (coopStep s) := by
  rw [coopStep_eq_microOp]
  refine hmicro _ _ (phase_instr_agent _) ?_
  split
  · exact hcoop s h
  · exact h

/-- What the micro-operations and the siblings' advance keep, every operation of the engine and of run control keeps. -/
theorem exec_engine_or_runControl_keeps {P : State → Prop} (hmicro : ∀ i s, i.agent = .engine → P s → P (microOp i s))
    (hcoop : ∀ s, P s → P (cooperate s)) {i : Instr} {s t : State} (hi : i.agent = .engine ∨ i.agent = .runControl)
    (h : P s) (he : exec i s = .next t) : P t := by
  have hstep := coopStep_keeps hmicro hcoop
  obtain hi | hi := hi
  · rw [exec_of_engine i s hi] at he
    rw [eq_of_whenPowered_next he]
    exact hmicro i s hi h
  · cases i with
    | line => rw [eq_of_whenPowered_next he]; exact doLine_keeps P hstep s h
    | run n => rw [eq_of_exec_run he]; exact runTicks_keeps P hstep _ s h
    | _ => simp [Instr.agent] at hi

/-! ### The vblank-pending flag (R36) -/

theorem doSync_io_irq (s : State) : (doSync s).io = s.io ∧ (doSync s).irq = s.irq := by
  unfold doSync
  split <;> exact ⟨rfl, rfl⟩

/-- No micro-operation but `PRE` writes the configuration. -/
theorem microOp_io (i : Instr) (s : State) (hi : i ≠ .pre) : (microOp i s).io = s.io := by
  cases i with
  | pre => exact absurd rfl hi
  | sync => exact (doSync_io_irq s).1
  | _ => simp [microOp]

/-- `PRE` drives the flag with the line, and no other micro-operation drives either. -/
theorem microOp_mirrors (i : Instr) (s : State) (h : s.io.vblankIRQ = s.irq.vblank) :
    (microOp i s).io.vblankIRQ = (microOp i s).irq.vblank := by
  cases i with
  | pre => simp only [microOp, doPre_io, doPre_irq, h]
  | hint => simp only [microOp, doHint_io, doHint_irq, h]; split <;> rfl
  | sync => simp only [microOp, doSync_io_irq, h]
  | _ => simpa [microOp] using h

/-- Settles O30: the engine and run control by `microOp_mirrors`; `POWER` clears both, and of the other commands only a
`CFGWR` writes a field of `io`, by the premise another one. -/
theorem vblankFlagMirrorsTheLine : Obligations.VblankFlagMirrorsTheLine := by
  intro i s t h hi he
  cases i with
  | power reset => rw [eq_of_exec_power he]; rfl
  | refresh pref => rw [eq_of_whenQuiescent_next he]; exact h
  | dbgrd sp addr => rw [eq_of_whenQuiescent_next he]; exact h
  | dbgwr sp addr data => rw [eq_of_whenQuiescent_next he]; exact h
  | cfgwr fld val =>
    rw [eq_of_exec_cfgwr he]
    cases fld with
    | vblankIRQ => exact absurd rfl (hi val)
    | _ => exact h
  | _ =>
    exact exec_engine_or_runControl_keeps (P := fun u => u.io.vblankIRQ = u.irq.vblank)
      (fun j u _ => microOp_mirrors j u) (fun _ hu => hu) (by simp [Instr.agent]) h he

/-! ### Who may write what (R198) -/

theorem microOp_io_but_flag (i : Instr) (s : State) (b : Bool) :
    { (microOp i s).io with vblankIRQ := b } = { s.io with vblankIRQ := b } := by
  by_cases hi : i = .pre
  · subst hi
    simp only [microOp, doPre_io]
  · rw [microOp_io i s hi]

/-- A `HOST` command other than `POWER`, or a `CFGWR`, writes no register of the engine, no time and no pixel. -/
theorem exec_command_frame {i : Instr} {s t : State} (hi : i.agent = .host ∨ i.agent = .mainCpu)
    (hpower : ∀ reset, i ≠ .power reset) (h : exec i s = .next t) :
    t.clock = s.clock ∧ t.latch = s.latch ∧ t.irq = s.irq ∧ t.seq = s.seq ∧ t.time = s.time ∧ t.output = s.output ∧
      t.vramMode = s.vramMode ∧ t.outbuf = s.outbuf := by
  cases i with
  | power reset => exact absurd rfl (hpower reset)
  | refresh pref => rw [eq_of_whenQuiescent_next h]; exact ⟨rfl, rfl, rfl, rfl, rfl, rfl, rfl, rfl⟩
  | dbgrd sp addr => rw [eq_of_whenQuiescent_next h]; exact ⟨rfl, rfl, rfl, rfl, rfl, rfl, rfl, rfl⟩
  | dbgwr sp addr data => rw [eq_of_whenQuiescent_next h]; exact ⟨rfl, rfl, rfl, rfl, rfl, rfl, rfl, rfl⟩
  | cfgwr fld val => rw [eq_of_exec_cfgwr h]; exact ⟨rfl, rfl, rfl, rfl, rfl, rfl, rfl, rfl⟩
  | _ => simp [Instr.agent] at hi

/-- A `HOST` command other than `POWER` writes no configuration, and only `DBGWR` writes a store. -/
theorem exec_host_io_stores {i : Instr} {s t : State} (hi : i.agent = .host) (hpower : ∀ reset, i ≠ .power reset)
    (h : exec i s = .next t) : t.io = s.io ∧ ((∀ sp a v, i ≠ .dbgwr sp a v) → t.stores = s.stores) := by
  cases i with
  | power reset => exact absurd rfl (hpower reset)
  | refresh pref => rw [eq_of_whenQuiescent_next h]; exact ⟨rfl, fun _ => rfl⟩
  | dbgrd sp addr => rw [eq_of_whenQuiescent_next h]; exact ⟨rfl, fun _ => rfl⟩
  | dbgwr sp addr data => rw [eq_of_whenQuiescent_next h]; exact ⟨rfl, fun hne => absurd rfl (hne sp addr data)⟩
  | _ => simp [Instr.agent] at hi

/-- Settles O59: the engine by `microOp_io` and `microOp_memory`, the commands by what `exec_command_frame` and
`exec_host_io_stores` say they leave. -/
theorem writeRights : Obligations.WriteRights := by
  intro i s t he
  refine ⟨fun hi => ?_, fun hi => ?_, fun hi => ?_, fun hi hpower => ?_⟩
  · exact exec_engine_or_runControl_keeps (P := fun u => { u.io with vblankIRQ := s.io.vblankIRQ } = s.io)
      (fun j u _ hu => (microOp_io_but_flag j u _).trans hu) (fun _ hu => hu) hi rfl he
  · rw [exec_of_engine i s hi] at he
    obtain ⟨hst, hbuf⟩ := microOp_memory i s
    rw [eq_of_whenPowered_next he]
    exact ⟨microOp_io i s, fun hw => by rw [hst, hw]; rfl, fun hw => by rw [hbuf, hw]; rfl⟩
  · cases i with
    | cfgwr fld val => rw [eq_of_exec_cfgwr he]
    | _ => cases hi
  · obtain ⟨hclock, hlatch, hirq, hseq, htime, houtput, hvram, hbuf⟩ := exec_command_frame (.inl hi) hpower he
    obtain ⟨hio, hst⟩ := exec_host_io_stores hi hpower he
    exact ⟨hclock, hlatch, hio, hirq, hseq, htime, houtput, hvram, hbuf, hst⟩

/-! ### Plain turns -/

/-- A plain turn other than the engine's leaves the registers of the engine as they are. -/
theorem step_plain_registers {s t : State} (hp : plainTurn (nextTurn s)) (he : nextTurn s ≠ .engine)
    (hs : step s = .next t) :
    t.clock = s.clock ∧ t.latch = s.latch ∧ t.irq = s.irq ∧ t.seq = s.seq ∧ t.time.vdp = s.time.vdp := by
  by_cases hc : ∃ w, nextTurn s = .command w
  · obtain ⟨w, hn⟩ := hc
    obtain ⟨i, hi, hpower, hexec⟩ := step_plain_command s t w hn (hn ▸ hp) hs
    obtain ⟨hclock, hlatch, hirq, hseq, htime, -⟩ := exec_command_frame hi hpower hexec
    exact ⟨hclock, hlatch, hirq, hseq, congrArg Times.vdp htime⟩
  · have hm : ∀ w, nextTurn s ≠ .micro w := fun w hn => by rwa [hn] at hp
    obtain ⟨-, -, hclock, hlatch, -, hirq, hseq, hvdp, -⟩ :=
      runTurn_sibling_frame (nextTurn s) (popTurn s) t (by cases hn : nextTurn s <;> simp_all) hs
    exact ⟨hclock, hlatch, hirq, hseq, hvdp⟩

/-! ### What rendering may rely on (R163) -/

/-- Only `END`, which enters `PRE`, moves the field and the mode latches. -/
theorem engineStep_modes (s : State) (h : (engineStep s).seq.ph ≠ .pre) :
    (engineStep s).clock.field = s.clock.field ∧ (engineStep s).latch.overscan = s.latch.overscan ∧
      (engineStep s).latch.displayWidth = s.latch.displayWidth := by
  unfold engineStep at h ⊢
  cases hp : s.seq.ph with
  | pre => rw [doPre_clock, doPre_latch]; split <;> split <;> exact ⟨rfl, rfl, rfl⟩
  | dot => rw [doDot_clock, doDot_latch]; split <;> exact ⟨rfl, rfl, rfl⟩
  | hint => rw [doHint_clock, doHint_latch]; exact ⟨rfl, rfl, rfl⟩
  | tick => exact ⟨rfl, rfl, rfl⟩
  | sync => simp only [doSync]; split <;> exact ⟨rfl, rfl, rfl⟩
  | endLine => simp [hp, doEnd_seq] at h

theorem step_plain_modes {s t : State} (hp : plainTurn (nextTurn s)) (hs : step s = .next t) (hpre : t.seq.ph ≠ .pre) :
    t.clock.field = s.clock.field ∧ t.latch.overscan = s.latch.overscan ∧
      t.latch.displayWidth = s.latch.displayWidth := by
  by_cases he : nextTurn s = .engine
  · obtain rfl := eq_of_step_engine he hs
    exact engineStep_modes (popTurn s) hpre
  · obtain ⟨hclock, hlatch, -⟩ := step_plain_registers hp he hs
    rw [hclock, hlatch]
    exact ⟨rfl, rfl, rfl⟩

/-- The one micro-operation that makes exactly a `RENDER_RUN` is a pass of the dot loop (R152). -/
theorem engineStep_renders {s : State} (h : (engineStep s).trace = s.trace ++ [.renderRun]) :
    s.seq.ph = .dot ∧ s.clock.hcounter.toNat < 1280 := by
  have hlog : (engineStep s).log = .renderRun :: s.log := by
    have := congrArg List.reverse h
    simpa [State.trace] using this
  unfold engineStep at h hlog
  cases hp : s.seq.ph with
  | pre =>
    have hevents : preEvents s = [.renderRun] := by simpa [hp, doPre_trace] using h
    have hlower : Event.cpuLower .hblank ∈ preEvents s := by simp [preEvents]
    simp [hevents] at hlower
  | dot =>
    refine ⟨rfl, ?_⟩
    by_contra hge
    simp [hp, doDot_log, hge] at hlog
  | hint => simp only [hp, doHint_log] at hlog; split at hlog <;> simp at hlog
  | tick => simp [hp] at hlog
  | sync => simp only [hp, doSync] at hlog; split at hlog <;> simp at hlog
  | endLine => simp [hp] at hlog

/-- Settles O47: the invariant at the `DOT` that makes the call, and the modes along the run by `step_plain_modes`. -/
theorem renderPremise : Obligations.RenderPremise := by
  refine ⟨fun s t hs hn hstep htrace => ?_, fun r m hr _ hplain hpre => ?_⟩
  · obtain rfl := eq_of_step_engine hn hstep
    obtain ⟨hp, hlt⟩ := engineStep_renders (s := popTurn s) htrace
    obtain ⟨ha, hh, -⟩ := hs.at_dot hp
    obtain ⟨hhblank, -⟩ := hs.levels_after_pre (by rw [show s.seq.ph = .dot from hp]; decide)
    have hlast : s.inLastStep = false := by simp [State.inLastStep, State.stepping, show s.seq.ph = .dot from hp]
    exact ⟨(activeLine_iff s).1 ha, (hs.hdot_lt_iff hp).1 hlt, hh, by simpa [hlast] using hhblank⟩
  · induction m with
    | zero => exact ⟨rfl, rfl, rfl⟩
    | succ m ih =>
      obtain ⟨hfield, hoverscan, hwidth⟩ := ih (fun i hi => hr i (by omega)) (fun i hi => hplain i (by omega))
        fun i h1 hi => hpre i h1 (by omega)
      obtain ⟨hfield', hoverscan', hwidth'⟩ :=
        step_plain_modes (hplain m (by omega)) (hr m (by omega)) (hpre (m + 1) (by omega) le_rfl)
      exact ⟨hfield'.trans hfield, hoverscan'.trans hoverscan, hwidth'.trans hwidth⟩

/-! ### A `STEP` in every run (R135) -/

theorem clockPairs_succ (k : Nat) : clockPairs (k + 1) = clockPairs k ++ [.dmaRun, .synced] := by
  simp [clockPairs, List.replicate_succ']

theorem clockEvents_append (es fs : List Event) : clockEvents (es ++ fs) = clockEvents es ++ clockEvents fs :=
  List.filter_append _ _

/-- How far a run from `s` has come in a `STEP(n)` that returns to `ret`: `k` clocks are done, and at `SYNC` the `TICK` of
the next one too. -/
structure InStep (n : Clocks) (ret : Ret) (s u : State) (k : Nat) (es : List Event) : Prop where
  trace : u.trace = s.trace ++ es
  returns : u.seq.ret = ret
  rem : u.seq.rem.toNat + k = n.toNat
  clock : u.clock = { s.clock with hcounter := addCounter s.clock.hcounter n.toNat }
  latch : u.latch = s.latch
  irq : u.irq = s.irq
  place :
    (u.seq.ph = .tick ∧ k < n.toNat ∧ clockEvents es = clockPairs k ∧ u.time.vdp = s.time.vdp + k) ∨
      (u.seq.ph = .sync ∧ k < n.toNat ∧ clockEvents es = clockPairs k ++ [.dmaRun] ∧ u.time.vdp = s.time.vdp + k + 1) ∨
      (u.seq.ph = ret.phase ∧ k = n.toNat ∧ clockEvents es = clockPairs k ∧ u.time.vdp = s.time.vdp + k)

theorem ret_phase_not_stepping (r : Ret) : r.phase ≠ .tick ∧ r.phase ≠ .sync := by
  cases r <;> decide

theorem doTick_trace (s : State) : (doTick s).trace = s.trace ++ [.dmaRun] := by
  simp [State.trace]

/-- A clock's `TICK`. -/
theorem InStep.doTick {n : Clocks} {ret : Ret} {s u : State} {k : Nat} {es : List Event} (h : InStep n ret s u k es)
    (hp : u.seq.ph = .tick) : InStep n ret s (doTick u) k (es ++ [.dmaRun]) := by
  obtain ⟨-, hk, hes, hvdp⟩ | ⟨hsync, -⟩ | ⟨hret, -⟩ := h.place
  · refine ⟨by rw [doTick_trace, h.trace, List.append_assoc], h.returns, h.rem, h.clock, h.latch, h.irq, .inr (.inl ⟨rfl, hk, ?_, ?_⟩)⟩
    · rw [clockEvents_append, hes]; rfl
    · rw [doTick_time, hvdp]
  · simp [hp] at hsync
  · exact absurd (hret.symm.trans hp) (ret_phase_not_stepping ret).1

/-- A clock's passed `SYNC`, the last one's to the return phase. -/
theorem InStep.passBarrier {n : Clocks} {ret : Ret} {s u : State} {k : Nat} {es : List Event} (h : InStep n ret s u k es)
    (hp : u.seq.ph = .sync) : InStep n ret s (passBarrier u) (k + 1) (es ++ [.synced]) := by
  obtain ⟨htick, -⟩ | ⟨-, hk, hes, hvdp⟩ | ⟨hret, -⟩ := h.place
  · simp [hp] at htick
  · have hrem := h.rem
    have hpairs : clockEvents (es ++ [.synced]) = clockPairs (k + 1) := by
      rw [clockEvents_append, hes, clockPairs_succ, List.append_assoc]; rfl
    have htime : (Machine.passBarrier u).time.vdp = s.time.vdp + (k + 1) := by rw [passBarrier_time, hvdp, Nat.add_assoc]
    have htrace : (Machine.passBarrier u).trace = s.trace ++ (es ++ [.synced]) := by
      rw [passBarrier_trace, h.trace, List.append_assoc]
    obtain ⟨hlast, hseq⟩ | ⟨r, hr, hmore, hseq⟩ := passBarrier_seq_cases u (by omega)
    · refine ⟨htrace, by rw [hseq]; exact h.returns, ?_, h.clock, h.latch, h.irq, .inr (.inr ⟨?_, ?_, hpairs, htime⟩)⟩
      · rw [hseq]; simp; omega
      · rw [hseq, ← h.returns]
      · omega
    · refine ⟨htrace, by rw [hseq]; exact h.returns, ?_, h.clock, h.latch, h.irq, .inl ⟨by rw [hseq], ?_, hpairs, htime⟩⟩
      · rw [hseq]; simp; omega
      · omega
  · exact absurd (hret.symm.trans hp) (ret_phase_not_stepping ret).2

/-- Taking a turn off the schedule leaves a `STEP` where it is. -/
theorem InStep.popTurn {n : Clocks} {ret : Ret} {s u : State} {k : Nat} {es : List Event} (h : InStep n ret s u k es) :
    InStep n ret s (popTurn u) k es :=
  ⟨h.trace, h.returns, h.rem, h.clock, h.latch, h.irq, h.place⟩

/-- Any plain turn inside a `STEP`: the engine's, which may hold, or another agent's, which adds no event of the clock. -/
theorem InStep.step {n : Clocks} {ret : Ret} {s u t : State} {k : Nat} {es : List Event} (h : InStep n ret s u k es)
    (hstepping : u.stepping = true) (hp : plainTurn (nextTurn u)) (hs : step u = .next t) :
    ∃ k' es', InStep n ret s t k' es' := by
  by_cases he : nextTurn u = .engine
  · rw [eq_of_step_engine he hs, engineStep]
    obtain hph | hph : u.seq.ph = .tick ∨ u.seq.ph = .sync := by simpa [State.stepping] using hstepping
    · rw [show (Machine.popTurn u).seq.ph = .tick from hph]
      exact ⟨_, _, h.popTurn.doTick hph⟩
    · rw [show (Machine.popTurn u).seq.ph = .sync from hph]
      simp only [doSync]
      split
      · exact ⟨_, _, h.popTurn.passBarrier hph⟩
      · exact ⟨_, _, h.popTurn⟩
  · obtain ⟨hclock, hlatch, hirq, hseq, hvdp⟩ := step_plain_registers hp he hs
    have hplace (fs : List Event) (hfs : clockEvents (es ++ fs) = clockEvents es) (htrace : t.trace = u.trace ++ fs) :
        InStep n ret s t k (es ++ fs) := by
      refine ⟨by rw [htrace, h.trace, List.append_assoc], ?_, ?_, hclock.trans h.clock, hlatch.trans h.latch,
        hirq.trans h.irq, ?_⟩
      · rw [hseq]; exact h.returns
      · rw [hseq]; exact h.rem
      · rw [hseq, hvdp, hfs]; exact h.place
    obtain hlog | ⟨pref, hlog⟩ := step_plain_log hp he hs
    · exact ⟨k, _, hplace [] (by simp) (by simp [State.trace, hlog])⟩
    · refine ⟨k, _, hplace [refreshEvent pref u] ?_ (by simp [State.trace, hlog])⟩
      rw [clockEvents_append]
      simp [clockEvents, refreshEvent]

/-- The entry of `STEP(n)` (R130). -/
theorem inStep_enterStep (n : Clocks) (ret : Ret) (s : State) (hn : 1 ≤ n.toNat) :
    InStep n ret s (enterStep n ret s) 0 [] :=
  ⟨(List.append_nil _).symm, rfl, rfl, rfl, rfl, rfl, .inl ⟨if_pos hn, hn, rfl, rfl⟩⟩

/-- Settles O40: the run stays `InStep` as long as it is inside the `STEP`, and leaves it at the return phase alone. -/
theorem completedStepInEveryRun : Obligations.CompletedStepInEveryRun := by
  intro n s r m hn hh hexec hr hin hout
  have hentry : r 0 = enterStep n (stepReturn s.seq.ph) s := eq_of_whenPowered_next hexec
  have hrun : ∀ i, i ≤ m → ∃ k es, InStep n (stepReturn s.seq.ph) s (r i) k es := by
    intro i hi
    induction i with
    | zero => exact ⟨0, [], hentry ▸ inStep_enterStep n _ s hn⟩
    | succ i ih =>
      obtain ⟨k, es, h⟩ := ih (by omega)
      exact h.step (hin i (by omega)).2 (hin i (by omega)).1 (hr i (by omega))
  obtain ⟨k, es, h⟩ := hrun m le_rfl
  obtain ⟨htick, -⟩ | ⟨hsync, -⟩ | ⟨hph, rfl, hes, hvdp⟩ := h.place
  · simp [State.stepping, htick] at hout
  · simp [State.stepping, hsync] at hout
  · have hrem : (r m).seq.rem = 0 := BitVec.eq_of_toNat_eq (Nat.add_eq_right.1 h.rem)
    have hret : (r 0).seq.ret = stepReturn s.seq.ph := by rw [hentry]; rfl
    refine ⟨es, h.trace, hes, hvdp, ?_, ?_, ?_, ?_, ?_, h.latch, h.irq⟩
    · rw [hret, ← hph, ← hrem, ← h.returns]
    · rw [h.clock, addCounter_toNat _ _ hh]
    all_goals rw [h.clock]

end Sys2Proof.Machine
end

section
/-! Run control (R112, R136, R155): what every cooperating micro-operation leaves alone, how far it is to the next `PRE` and
to the next `TICK` from every state, and from these that `LINE` and `RUN` stop where the spec says. -/

namespace Sys2Proof.Machine

open Sys2Proof.Spec

/-! ### The frame of a run (R112, R198) -/

theorem runFrame_refl (s : State) : RunFrame s s :=
  ⟨rfl, rfl, rfl, rfl, rfl, rfl, le_rfl, le_rfl⟩

theorem RunFrame.trans {s t u : State} (h : RunFrame s t) (h' : RunFrame t u) : RunFrame s u := by
  obtain ⟨houtput, hvram, hpowered, hsaw, hport, hsched, hcpu, hapu⟩ := h
  obtain ⟨houtput', hvram', hpowered', hsaw', hport', hsched', hcpu', hapu'⟩ := h'
  exact ⟨houtput'.trans houtput, hvram'.trans hvram, hpowered'.trans hpowered, hsaw'.trans hsaw, hport'.trans hport,
    hsched'.trans hsched, hcpu.trans hcpu', hapu.trans hapu'⟩

/-- Of the times of the siblings a micro-operation leaves all, but that they advance at a barrier. -/
theorem coopStep_sibling_times (s : State) : s.time.cpu ≤ (coopStep s).time.cpu ∧ s.time.apu ≤ (coopStep s).time.apu := by
  unfold coopStep
  cases hp : s.seq.ph with
  | sync =>
    simp only [passBarrier_time, cooperate_time]
    omega
  | _ => simp

theorem runFrame_coopStep (s : State) : RunFrame s (coopStep s) :=
  ⟨coopStep_output s, coopStep_vramMode s, coopStep_powered s, coopStep_saw s, coopStep_dbgRdata s, coopStep_schedule s,
    (coopStep_sibling_times s).1, (coopStep_sibling_times s).2⟩

theorem runFrame_iterate (k : Nat) (s : State) : RunFrame s (coopStep^[k] s) := by
  induction k with
  | zero => exact runFrame_refl s
  | succ k ih =>
    rw [Function.iterate_succ_apply']
    exact RunFrame.trans ih (runFrame_coopStep _)

/-! ### The memories of a run (U10) -/

/-- A cooperating micro-operation writes what the call of its phase writes. -/
theorem coopStep_memory (s : State) :
    (coopStep s).stores = writeBytes (storeWrites s.seq.ph.instr s) s.stores ∧
      (coopStep s).outbuf = writePixels (pixelWrites s.seq.ph.instr s) s.outbuf := by
  rw [coopStep_eq_microOp]
  split
  · next hp => rw [hp]; exact microOp_memory .sync (cooperate s)
  · exact microOp_memory _ s

theorem runMemory_iterate (k : Nat) (s : State) : RunMemory k s (coopStep^[k] s) := by
  induction k with
  | zero => exact ⟨fun _ _ _ => rfl, fun _ _ => rfl⟩
  | succ k ih =>
    obtain ⟨hst, hbuf⟩ := coopStep_memory (coopStep^[k] s)
    rw [Function.iterate_succ_apply']
    refine ⟨fun sp a h => ?_, fun n h => ?_⟩
    · rw [hst, memRead_writeBytes _ _ _ _ (h k (by omega))]
      exact ih.1 sp a fun j hj => h j (by omega)
    · rw [hbuf, read_writePixels _ _ _ (h k (by omega))]
      exact ih.2 n fun j hj => h j (by omega)

/-! ### How far it is to the next `PRE` -/

/-- A bound on the micro-operations from `DOT` to the next `PRE`, by `hcounter`: a pass of the dot loop takes 9
micro-operations for 4 clocks or 11 for 5, and then come the fall-through, `HINT`, its 430 clocks and `END`. -/
def dotBound (h : Nat) : Nat := (if h < 1280 then 9 * (1284 - h) / 4 else 0) + 863

/-- The same from the return phase of a `STEP`. -/
def retBound (r : Ret) (h : Nat) : Nat :=
  match r with
  | .pre => 0
  | .dot => dotBound h
  | .endLine => 1

/-- A bound on the micro-operations to the next `PRE`. With no clock left at `TICK` or `SYNC`, which no run meets, the
next `seq.rem` is unknown (log entry 6), so it is taken at its greatest. -/
def preBound (s : State) : Nat :=
  match s.seq.ph with
  | .pre => 0
  | .dot => dotBound s.clock.hcounter.toNat
  | .hint => 862
  | .tick => (if s.seq.rem.toNat = 0 then 4096 else 2 * s.seq.rem.toNat) + retBound s.seq.ret s.clock.hcounter.toNat
  | .sync => (if s.seq.rem.toNat = 0 then 4095 else 2 * s.seq.rem.toNat - 1) + retBound s.seq.ret s.clock.hcounter.toNat
  | .endLine => 1

theorem dotBound_le (h : Nat) : 863 ≤ dotBound h ∧ dotBound h ≤ 3752 := by
  unfold dotBound
  split <;> omega

theorem retBound_le (r : Ret) (h : Nat) : retBound r h ≤ 3752 := by
  have := dotBound_le h
  cases r <;> simp only [retBound] <;> omega

theorem preBound_le (s : State) : preBound s < lineFuel := by
  have hdot := dotBound_le s.clock.hcounter.toNat
  have hret := retBound_le s.seq.ret s.clock.hcounter.toNat
  have hrem : s.seq.rem.toNat < 2048 := s.seq.rem.isLt
  unfold preBound lineFuel
  split <;> (try split) <;> omega

/-- The bound at the return phase of a `STEP`. -/
theorem preBound_of_ret {s : State} (h : s.seq.ph = s.seq.ret.phase) :
    preBound s = retBound s.seq.ret s.clock.hcounter.toNat := by
  unfold preBound
  rw [h]
  cases s.seq.ret <;> rfl

/-- A pass of the dot loop takes 9 micro-operations for 4 clocks, or 11 for 5. -/
theorem preBound_doDot (s : State) : preBound (doDot s) + 1 ≤ dotBound s.clock.hcounter.toNat := by
  by_cases hlt : s.clock.hcounter.toNat < 1280
  · have hle := pixelWidth_le s
    have hwidth : pixelWidth s = 4 ∨ pixelWidth s = 5 := by
      unfold pixelWidth; cases s.latch.displayWidth <;> simp [pixelWidthOf, pwWide, pwNarrow]
    have hh : (doDot s).clock.hcounter.toNat = s.clock.hcounter.toNat + pixelWidth s := by
      rw [doDot_clock, if_pos hlt, addCounter_toNat _ _ (by omega)]
    have hseq : (doDot s).seq = ⟨.tick, BitVec.ofNat 11 (pixelWidth s), .dot⟩ := by rw [doDot_seq, if_pos hlt]
    simp only [preBound, hseq, hh, retBound, dotBound, pixelWidth_clocks, (pixelWidth_pos s).ne', hlt, if_true, if_false]
    obtain hw | hw := hwidth
    · rw [hw]; split_ifs <;> omega
    · rw [hw]; split_ifs <;> omega
  · have hseq : (doDot s).seq = ⟨.hint, s.seq.rem, s.seq.ret⟩ := by rw [doDot_seq, if_neg hlt]
    simp only [preBound, hseq, dotBound, hlt, if_false]
    omega

/-- The bound after the barrier of a `STEP` is one less. -/
theorem preBound_passBarrier {s : State} (h : s.seq.ph = .sync) :
    preBound (passBarrier s) + 1 ≤ preBound s := by
  have hdec : (decRem s.seq.rem).toNat < 2048 := (decRem s.seq.rem).isLt
  by_cases hleft : 0 < (decRem s.seq.rem).toNat
  · have hseq : (passBarrier s).seq = ⟨.tick, decRem s.seq.rem, s.seq.ret⟩ := by rw [passBarrier_seq, if_pos hleft]
    by_cases hrem : s.seq.rem.toNat = 0
    · simp only [preBound, hseq, h, hrem, passBarrier_clock, if_true, if_neg hleft.ne']
      omega
    · have := decRem_toNat s.seq.rem (by omega)
      simp only [preBound, hseq, h, hrem, passBarrier_clock, if_false, if_neg hleft.ne']
      omega
  · have hret : (passBarrier s).seq.ph = (passBarrier s).seq.ret.phase := by simp [hleft]
    have hsync : 1 + retBound s.seq.ret s.clock.hcounter.toNat ≤ preBound s := by
      simp only [preBound, h]
      split <;> omega
    have heq : (passBarrier s).seq.ret = s.seq.ret := rfl
    rw [preBound_of_ret hret, passBarrier_clock, heq]
    omega

theorem preBound_coopStep {s : State} (h : s.seq.ph ≠ .pre) : preBound (coopStep s) + 1 ≤ preBound s := by
  cases hp : s.seq.ph with
  | pre => exact absurd hp h
  | dot =>
    rw [coopStep_of_dot s hp]
    simpa only [preBound, hp] using preBound_doDot s
  | hint =>
    rw [coopStep_of_hint s hp]
    simp [preBound, hp, doHint_seq, retBound, Config.lineTail]
  | tick =>
    rw [coopStep_of_tick s hp]
    simp only [preBound, hp, doTick_seq, doTick_clock]
    split <;> omega
  | sync =>
    rw [coopStep_of_sync s hp]
    exact preBound_passBarrier (s := cooperate s) hp
  | endLine =>
    rw [coopStep_of_endLine s hp]
    simp [preBound, hp, doEnd_seq]

/-- From every state outside `PRE` the engine, with its siblings cooperating, comes to `PRE` within the bound. -/
theorem exists_first_pre (m : Nat) (s : State) (hb : preBound s ≤ m) :
    ∃ k, k ≤ m ∧ (coopStep^[k] s).seq.ph = .pre ∧ ∀ j, j < k → (coopStep^[j] s).seq.ph ≠ .pre := by
  induction m generalizing s with
  | zero =>
    refine ⟨0, le_rfl, ?_, fun j hj => absurd hj (Nat.not_lt_zero j)⟩
    by_contra hph
    have := preBound_coopStep (s := s) hph
    omega
  | succ m ih =>
    by_cases hph : s.seq.ph = .pre
    · exact ⟨0, Nat.zero_le _, hph, fun j hj => absurd hj (Nat.not_lt_zero j)⟩
    · have := preBound_coopStep hph
      obtain ⟨k, hk, hpre, hfirst⟩ := ih (coopStep s) (by omega)
      refine ⟨k + 1, by omega, by rwa [Function.iterate_succ_apply], fun j hj => ?_⟩
      cases j with
      | zero => exact hph
      | succ j => rw [Function.iterate_succ_apply]; exact hfirst j (by omega)

/-- `LINE` is the micro-operations up to the first that enters `PRE`, at least one. -/
theorem doLine_eq_iterate (s : State) :
    ∃ k, doLine s = coopStep^[k] s ∧ 1 ≤ k ∧ k ≤ lineFuel ∧ (doLine s).seq.ph = .pre ∧
      ∀ j, 1 ≤ j → j < k → (coopStep^[j] s).seq.ph ≠ .pre := by
  have hlt := preBound_le (coopStep s)
  obtain ⟨k, hk, hpre, hfirst⟩ := exists_first_pre (preBound (coopStep s)) (coopStep s) le_rfl
  rw [← Function.iterate_succ_apply] at hpre
  have hfirst' : ∀ j, 1 ≤ j → j < k + 1 → (coopStep^[j] s).seq.ph ≠ .pre := fun j h1 hj => by
    obtain ⟨i, rfl⟩ := Nat.exists_eq_add_of_le' h1
    rw [Function.iterate_succ_apply]
    exact hfirst i (by omega)
  have heq : doLine s = coopStep^[k + 1] s :=
    runToPre_eq_iterate lineFuel (k + 1) s (by omega) (by omega) hpre hfirst'
  exact ⟨k + 1, heq, by omega, by omega, heq ▸ hpre, hfirst'⟩

theorem doLine_runFrame (s : State) : RunFrame s (doLine s) := by
  obtain ⟨k, heq, -⟩ := doLine_eq_iterate s
  rw [heq]
  exact runFrame_iterate k s

/-- Settles O44: every micro-operation brings `PRE` nearer by the measure `preBound`, which is below the fuel of `LINE`. -/
theorem lineRunsToTheNextPre : Obligations.LineRunsToTheNextPre := by
  unfold Obligations.LineRunsToTheNextPre
  intro s hs
  obtain ⟨k, heq, h1, -, hpre, hfirst⟩ := doLine_eq_iterate s
  exact ⟨doLine s, k, exec_line_of_powered s hs, heq, h1, hpre, hfirst, heq ▸ runMemory_iterate k s, doLine_runFrame s⟩

/-! ### How far it is to the next `TICK` (R136) -/

/-- A bound on the micro-operations before the next `TICK`. -/
def tickBound (s : State) : Nat :=
  match s.seq.ph with
  | .tick => 0
  | .hint => 1
  | .dot => if s.clock.hcounter.toNat < 1280 then 1 else 2
  | .pre => 3
  | .endLine => 4
  | .sync => 5

theorem tickBound_lt (s : State) : tickBound s < tickFuel := by
  unfold tickBound tickFuel
  split <;> (try split) <;> omega

theorem tickBound_ret (r : Ret) {s : State} (h : s.seq.ph = r.phase) : tickBound s ≤ 4 := by
  unfold tickBound
  rw [h]
  cases r with
  | dot => simp only [Ret.phase]; split <;> omega
  | _ => simp [Ret.phase]

theorem tickBound_coopStep {s : State} (h : s.seq.ph ≠ .tick) : tickBound (coopStep s) + 1 ≤ tickBound s := by
  cases hp : s.seq.ph with
  | tick => exact absurd hp h
  | hint =>
    rw [coopStep_of_hint s hp]
    simp [tickBound, hp, doHint_seq]
  | dot =>
    rw [coopStep_of_dot s hp]
    by_cases hlt : s.clock.hcounter.toNat < 1280 <;> simp [tickBound, hp, doDot_seq, hlt]
  | pre =>
    rw [coopStep_of_pre s hp]
    by_cases hactive : activeLine s = true
    · simp only [tickBound, hp, doPre_seq, if_pos hactive]
      split <;> omega
    · simp [tickBound, hp, doPre_seq, if_neg hactive]
  | endLine =>
    rw [coopStep_of_endLine s hp]
    simp [tickBound, hp, doEnd_seq]
  | sync =>
    rw [coopStep_of_sync s hp]
    have hfive : tickBound s = 5 := by simp only [tickBound, hp]
    by_cases hleft : 0 < (decRem s.seq.rem).toNat
    · simp [tickBound, hp, hleft]
    · have := tickBound_ret s.seq.ret (s := passBarrier (cooperate s)) (by simp [hleft])
      omega

/-- A micro-operation that is no `TICK` takes no clock and calls no DMA. -/
theorem coopStep_ticks_not {s : State} (h : s.seq.ph ≠ .tick) :
    (coopStep s).time.vdp = s.time.vdp ∧ (coopStep s).trace.count .dmaRun = s.trace.count .dmaRun := by
  have hevents : (preEvents s).count .dmaRun = 0 := by
    unfold preEvents
    simp only [List.count_append]
    split_ifs <;> rfl
  unfold coopStep
  cases hp : s.seq.ph with
  | tick => exact absurd hp h
  | pre => simp [doPre_trace, hevents]
  | dot => simp only [doDot_trace, doDot_time]; split <;> simp
  | hint => simp only [State.trace, List.count_reverse, doHint_log, doHint_time]; split <;> simp
  | sync => simp [State.trace]
  | endLine => simp [State.trace]

/-- `RUN` up to and including the next `TICK`, from every state from which the fuel reaches it. -/
theorem runToTick_spec (m : Nat) (s : State) (hb : tickBound s < m) :
    (∃ k, runToTick m s = coopStep^[k] s) ∧ (runToTick m s).seq.ph = .sync ∧
      (runToTick m s).time.vdp = s.time.vdp + 1 ∧
      (runToTick m s).trace.count .dmaRun = s.trace.count .dmaRun + 1 := by
  induction m generalizing s with
  | zero => omega
  | succ m ih =>
    rw [runToTick]
    split
    · next hp => exact ⟨⟨1, (coopStep_of_tick s hp).symm⟩, by simp, by simp, by simp [doTick_trace]⟩
    · next hp =>
      have := tickBound_coopStep hp
      obtain ⟨hvdp, hcount⟩ := coopStep_ticks_not hp
      obtain ⟨⟨k, hk⟩, hph, hvdp', hcount'⟩ := ih (coopStep s) (by omega)
      exact ⟨⟨k + 1, hk⟩, hph, by omega, by omega⟩

theorem runTicks_spec (n : Nat) (s : State) :
    (∃ k, runTicks n s = coopStep^[k] s) ∧ (n ≠ 0 → (runTicks n s).seq.ph = .sync) ∧
      (runTicks n s).time.vdp = s.time.vdp + n ∧
      (runTicks n s).trace.count .dmaRun = s.trace.count .dmaRun + n := by
  induction n generalizing s with
  | zero => exact ⟨⟨0, rfl⟩, fun h => absurd rfl h, rfl, rfl⟩
  | succ n ih =>
    obtain ⟨⟨k, hk⟩, hph, hvdp, hcount⟩ := runToTick_spec tickFuel s (tickBound_lt s)
    obtain ⟨⟨k', hk'⟩, hph', hvdp', hcount'⟩ := ih (runToTick tickFuel s)
    rw [runTicks]
    refine ⟨⟨k' + k, ?_⟩, fun _ => ?_, by omega, by omega⟩
    · rw [hk', hk, ← Function.iterate_add_apply]
    · cases n with
      | zero => exact hph
      | succ n => exact hph' (by omega)

/-- Settles O41: from every phase the next `TICK` is at most `tickBound` micro-operations away, and only a `TICK` takes a
clock or calls the DMA; by induction on the clocks asked for. -/
theorem runStopsAtTheBarrier : Obligations.RunStopsAtTheBarrier := by
  unfold Obligations.RunStopsAtTheBarrier
  intro n s hs hn
  obtain ⟨⟨k, hk⟩, hph, hvdp, hcount⟩ := runTicks_spec n.toNat s
  have hne : n.toNat ≠ 0 := fun h => hn (BitVec.eq_of_toNat_eq h)
  refine ⟨runTicks n.toNat s, ?_, hph hne, hvdp, hcount, ⟨k, hk, hk ▸ runMemory_iterate k s⟩, hk ▸ runFrame_iterate k s⟩
  simp only [exec, execRun, whenPowered_of_powered _ _ hs, if_neg hn]

end Sys2Proof.Machine
end

section
/-! One line of the engine with its siblings cooperating (R135, R160, R162): a `STEP`, the dot loop, and the line that
starts in a state, by what it leaves at its `END`. -/

namespace Sys2Proof.Machine

open Sys2Proof.Spec

/-! ### Paths that do not enter `PRE` -/

/-- The engine goes from `s` to `t` in `m` micro-operations, none of which enters `PRE`. -/
structure Path (m : Nat) (s t : State) : Prop where
  steps : coopStep^[m] s = t
  noPre : ∀ j, 1 ≤ j → j ≤ m → (coopStep^[j] s).seq.ph ≠ .pre

theorem path_refl (s : State) : Path 0 s s :=
  ⟨rfl, fun j h1 h0 => by omega⟩

theorem path_one {s t : State} (h : coopStep s = t) (hp : t.seq.ph ≠ .pre) : Path 1 s t := by
  refine ⟨h, fun j h1 hj => ?_⟩
  obtain rfl : j = 1 := by omega
  rwa [Function.iterate_one, h]

theorem Path.trans {m m' : Nat} {s t u : State} (h : Path m s t) (h' : Path m' t u) : Path (m + m') s u := by
  refine ⟨by rw [Nat.add_comm, Function.iterate_add_apply, h.steps, h'.steps], fun j h1 hj => ?_⟩
  obtain hle | hlt := le_or_gt j m
  · exact h.noPre j h1 hle
  · obtain ⟨i, rfl⟩ := Nat.exists_eq_add_of_le' hlt.le
    rw [Function.iterate_add_apply, h.steps]
    exact h'.noPre i (by omega) (by omega)

/-- A path to `END` that is short enough is a line. -/
theorem Path.doLine {m : Nat} {s e : State} (h : Path m s e) (hm : m < lineFuel) (hp : e.seq.ph = .endLine) :
    doLine s = doEnd e := by
  have hlast : coopStep^[m + 1] s = doEnd e := by
    rw [Function.iterate_succ_apply', h.steps, coopStep_of_endLine e hp]
  rw [← hlast]
  exact runToPre_eq_iterate lineFuel (m + 1) s hm (by omega) (by rw [hlast, doEnd_seq])
    fun j h1 hj => h.noPre j h1 (by omega)

/-! ### Segments of a line -/

/-- A path of `n` clocks with the events `es` that leaves the line, the latches, the configuration and the interrupt
lines as they are. -/
structure Segment (m n : Nat) (es : List Event) (s t : State) : Prop extends Path m s t where
  trace : t.trace = s.trace ++ es
  vdp : t.time.vdp = s.time.vdp + n
  vcounter : t.clock.vcounter = s.clock.vcounter
  field : t.clock.field = s.clock.field
  latch : t.latch = s.latch
  io : t.io = s.io
  irq : t.irq = s.irq

theorem segment_refl (s : State) : Segment 0 0 [] s s :=
  ⟨path_refl s, (List.append_nil _).symm, rfl, rfl, rfl, rfl, rfl, rfl⟩

theorem Segment.trans {m m' n n' : Nat} {es es' : List Event} {s t u : State} (h : Segment m n es s t)
    (h' : Segment m' n' es' t u) : Segment (m + m') (n + n') (es ++ es') s u :=
  ⟨Path.trans h.toPath h'.toPath, by rw [h'.trace, h.trace, List.append_assoc], by rw [h'.vdp, h.vdp, Nat.add_assoc],
    h'.vcounter.trans h.vcounter, h'.field.trans h.field, h'.latch.trans h.latch, h'.io.trans h.io, h'.irq.trans h.irq⟩

/-! ### A `STEP` (R135) -/

/-- One clock of a `STEP`: `TICK`, the siblings catch up, `SYNC`. -/
def oneClock (s : State) : State := passBarrier (cooperate (doTick s))

theorem oneClock_clock (s : State) : (oneClock s).clock = s.clock := by
  simp [oneClock]

theorem oneClock_seq_cases {s : State} (h : 1 ≤ s.seq.rem.toNat) :
    (s.seq.rem.toNat = 1 ∧ (oneClock s).seq = ⟨s.seq.ret.phase, 0, s.seq.ret⟩) ∨
      ∃ r, 1 ≤ r.toNat ∧ s.seq.rem.toNat = r.toNat + 1 ∧ (oneClock s).seq = ⟨.tick, r, s.seq.ret⟩ :=
  passBarrier_seq_cases (cooperate (doTick s)) h

theorem segment_oneClock {s : State} (hp : s.seq.ph = .tick) (hrem : 1 ≤ s.seq.rem.toNat) (hret : s.seq.ret ≠ .pre) :
    Segment 2 1 [.dmaRun, .synced] s (oneClock s) := by
  have hpre : (oneClock s).seq.ph ≠ .pre := by
    obtain ⟨-, hseq⟩ | ⟨r, -, -, hseq⟩ := oneClock_seq_cases hrem
    · rw [hseq]
      cases hr : s.seq.ret with
      | pre => exact absurd hr hret
      | _ => simp [Ret.phase]
    · simp [hseq]
  have hpath : Path 2 s (oneClock s) :=
    Path.trans (path_one (coopStep_of_tick s hp) (by simp)) (path_one (coopStep_of_sync (doTick s) (by simp)) hpre)
  refine ⟨hpath, ?_, ?_, ?_, ?_, ?_, ?_, ?_⟩
  · rw [oneClock, passBarrier_trace]
    simp [State.trace]
  all_goals simp [oneClock]

/-- The `n` clocks of a `STEP(n)` that returns to `DOT` or `END`. -/
theorem segment_step (n : Nat) (s : State) (hp : s.seq.ph = .tick) (hn : s.seq.rem.toNat = n) (h1 : 1 ≤ n)
    (hret : s.seq.ret ≠ .pre) :
    ∃ t, Segment (2 * n) n (clockPairs n) s t ∧ t.seq = ⟨s.seq.ret.phase, 0, s.seq.ret⟩ ∧ t.clock = s.clock := by
  induction n generalizing s with
  | zero => omega
  | succ n ih =>
    have hfirst := segment_oneClock hp (by omega) hret
    obtain ⟨hlast, hseq⟩ | ⟨r, hr, hmore, hseq⟩ := oneClock_seq_cases (s := s) (by omega)
    · obtain rfl : n = 0 := by omega
      exact ⟨oneClock s, hfirst, hseq, oneClock_clock s⟩
    · obtain ⟨t, hseg, htseq, htclock⟩ := ih (oneClock s) (by rw [hseq]) (by rw [hseq]; simp only; omega) (by omega)
        (by rwa [hseq])
      refine ⟨t, ?_, by rw [htseq, hseq], htclock.trans (oneClock_clock s)⟩
      have h := hfirst.trans hseg
      rwa [show 2 + 2 * n = 2 * (n + 1) by omega, Nat.add_comm 1 n] at h

/-- Settles O39: the entry of the `STEP`, and `segment_step`. -/
theorem completedStepLaw : Obligations.CompletedStepLaw := by
  unfold Obligations.CompletedStepLaw
  intro n s hs hn hh
  have hentry : exec (.step n) s = .next (enterStep n (stepReturn s.seq.ph) s) := whenPowered_of_powered s _ hs
  have hret : stepReturn s.seq.ph ≠ .pre := by
    obtain h | h := stepReturn_ne_pre s.seq.ph <;> simp [h]
  obtain ⟨u, hseg, hseq, hclock⟩ :=
    segment_step n.toNat (enterStep n (stepReturn s.seq.ph) s) (if_pos hn) rfl hn hret
  have hframe : RunFrame (enterStep n (stepReturn s.seq.ph) s) u := hseg.steps ▸ runFrame_iterate _ _
  have hhcounter : u.clock.hcounter.toNat = s.clock.hcounter.toNat + n.toNat := by
    rw [hclock, enterStep_clock]
    exact addCounter_toNat _ _ hh
  exact ⟨_, u, hentry, hseg.steps, hseg.trace, hseg.vdp, hhcounter, hseq, by rw [hclock]; rfl, hseg.vcounter, hseg.field,
    hseg.latch, hseg.io, hseg.irq, hframe⟩

/-! ### The dot loop (R152) -/

/-- The events of one pass of the dot loop (R162). -/
def dotEvents (s : State) : List Event := .renderRun :: clockPairs (pixelWidth s)

theorem Segment.pixelWidth {m n : Nat} {es : List Event} {s t : State} (h : Segment m n es s t) :
    pixelWidth t = pixelWidth s := by
  unfold Machine.pixelWidth
  rw [h.latch]

theorem segment_doDot {s : State} (hp : s.seq.ph = .dot) :
    Segment 1 0 (if s.clock.hcounter.toNat < 1280 then [.renderRun] else []) s (doDot s) := by
  refine ⟨path_one (coopStep_of_dot s hp) ?_, ?_, by simp, ?_, ?_, by simp, by simp, by simp⟩
  · rw [doDot_seq]; split <;> simp
  · rw [doDot_trace]; split <;> simp
  · rw [doDot_clock]; split <;> rfl
  · rw [doDot_clock]; split <;> rfl

/-- One pass: the call of the rendering collaborator and the clocks of one dot. -/
theorem segment_dotPass {s : State} (hp : s.seq.ph = .dot) (hlt : s.clock.hcounter.toNat < 1280) :
    ∃ t, Segment (1 + 2 * pixelWidth s) (pixelWidth s) (dotEvents s) s t ∧ t.seq.ph = .dot ∧
      t.clock.hcounter.toNat = s.clock.hcounter.toNat + pixelWidth s := by
  have hseq : (doDot s).seq = ⟨.tick, BitVec.ofNat 11 (pixelWidth s), .dot⟩ := by rw [doDot_seq, if_pos hlt]
  have hle := pixelWidth_le s
  obtain ⟨t, hseg, htseq, htclock⟩ :=
    segment_step (pixelWidth s) (doDot s) (by rw [hseq]) (by rw [hseq, pixelWidth_clocks]) (pixelWidth_pos s)
      (by simp [hseq])
  have h := (segment_doDot hp).trans hseg
  rw [if_pos hlt, Nat.zero_add] at h
  refine ⟨t, h, by rw [htseq, hseq]; rfl, ?_⟩
  rw [htclock, doDot_clock, if_pos hlt]
  exact addCounter_toNat _ _ (by omega)

/-- `k` passes, as many as the active part of the line has left. -/
theorem segment_dotLoop (k : Nat) (s : State) (hp : s.seq.ph = .dot)
    (hk : s.clock.hcounter.toNat + k * pixelWidth s ≤ 1280) :
    ∃ t, Segment (k * (1 + 2 * pixelWidth s)) (k * pixelWidth s) (List.replicate k (dotEvents s)).flatten s t ∧
      t.seq.ph = .dot ∧ t.clock.hcounter.toNat = s.clock.hcounter.toNat + k * pixelWidth s := by
  induction k generalizing s with
  | zero => exact ⟨s, by simpa using segment_refl s, hp, by simp⟩
  | succ k ih =>
    have hpos := pixelWidth_pos s
    rw [Nat.add_one_mul] at hk
    obtain ⟨t, hfirst, htp, hth⟩ := segment_dotPass hp (by omega)
    have hwidth := hfirst.pixelWidth
    have hevents : dotEvents t = dotEvents s := by unfold dotEvents; rw [hwidth]
    obtain ⟨u, hrest, hup, huh⟩ := ih t htp (by rw [hwidth]; omega)
    rw [hwidth, hevents] at hrest
    rw [hwidth] at huh
    have h := hfirst.trans hrest
    refine ⟨u, ?_, hup, by rw [Nat.add_one_mul]; omega⟩
    rwa [Nat.add_comm (1 + 2 * pixelWidth s), Nat.add_comm (pixelWidth s), ← Nat.add_one_mul, ← Nat.add_one_mul] at h

end Sys2Proof.Machine
end

section
/-! The line that starts in a state, whole (R140 to R162): what it leaves at its `END`, for an active and for a blanking
line, and from that the budget law, the events and the start of the next line. -/

namespace Sys2Proof.Machine

open Sys2Proof.Spec

/-! ### What a line leaves (R145, R162) -/

/-- The horizontal countdown after the line that starts in `s`. -/
def hicAfterLine (s : State) : BitVec 8 :=
  if activeLine s then (if countAtHint s = 0 then s.io.hic else countAtHint s - 1) else s.latch.hic

/-- The horizontal-blank line after the line that starts in `s`. -/
def hblankAfterLine (s : State) : Bool := activeLine s && (decide (countAtHint s = 0) && s.io.hbie)

/-- The state at the `END` of the line that starts in `s`. -/
structure LineEnd (s e : State) : Prop where
  ph : e.seq.ph = .endLine
  trace : e.trace = s.trace ++ lineEvents s
  vdp : e.time.vdp = s.time.vdp + 1710
  vcounter : e.clock.vcounter = s.clock.vcounter
  field : e.clock.field = s.clock.field
  latch : e.latch = { s.latch with hic := hicAfterLine s }
  io : e.io = (doPre s).io
  irq : e.irq = ⟨hblankAfterLine s, (doPre s).irq.vblank, enteringBlank s⟩

theorem path_doPre {s : State} (hp : s.seq.ph = .pre) : Path 1 s (doPre s) := by
  refine path_one (coopStep_of_pre s hp) ?_
  rw [doPre_seq]
  split <;> simp

theorem doPre_field (s : State) : (doPre s).clock.field = s.clock.field := by
  rw [doPre_clock]; split <;> rfl

theorem lineEvents_of_blank {s : State} (h : activeLine s = false) : lineEvents s = preEvents s ++ clockPairs 1710 := by
  unfold lineEvents
  rw [if_neg (by rw [← activeLine_iff]; simp [h])]

theorem lineEvents_of_active {s : State} (h : activeLine s = true) :
    lineEvents s =
      preEvents s ++
        ((List.replicate (activeWidth s) (dotEvents s)).flatten ++
          (if countAtHint s = 0 ∧ s.io.hbie = true then [Event.cpuRaise .hblank] else []) ++ clockPairs 430) := by
  unfold lineEvents dotEvents
  rw [if_pos ((activeLine_iff s).1 h)]

/-- No blanking line is line 0. -/
theorem not_atTop_of_blank {s : State} (h : activeLine s = false) : atTop s = false := by
  have hlow := screenHeightOf_bounds s.latch.overscan
  have hline : ¬ s.clock.vcounter.toNat < screenHeight s := by rw [← activeLine_iff]; simp [h]
  unfold screenHeight at hline
  rw [Bool.eq_false_iff, ne_eq, atTop_iff]
  omega

/-- A blanking line is `PRE` and 1710 clocks. -/
theorem exists_lineEnd_of_blank {s : State} (hp : s.seq.ph = .pre) (h : activeLine s = false) :
    ∃ m e, Path m s e ∧ m < lineFuel ∧ LineEnd s e := by
  have hseq : (doPre s).seq = ⟨.tick, Config.lineBlank, .endLine⟩ := by rw [doPre_seq, h]; rfl
  have hlatch : (doPre s).latch = s.latch := by rw [doPre_latch, not_atTop_of_blank h]; rfl
  obtain ⟨e, hseg, heseq, -⟩ :=
    segment_step 1710 (doPre s) (by rw [hseq]) (by rw [hseq]; decide) (by decide) (by simp [hseq])
  refine ⟨_, e, (path_doPre hp).trans hseg.toPath, by unfold lineFuel; omega, by rw [heseq, hseq]; rfl, ?_, ?_, ?_, ?_,
    ?_, hseg.io, ?_⟩
  · rw [hseg.trace, doPre_trace, lineEvents_of_blank h, List.append_assoc]
  · rw [hseg.vdp, doPre_time]
  · rw [hseg.vcounter, doPre_vcounter]
  · rw [hseg.field, doPre_field]
  · rw [hseg.latch, hlatch, hicAfterLine, h]; rfl
  · rw [hseg.irq, doPre_irq, hblankAfterLine, h]; rfl

/-- The countdown that the `HINT` of an active line meets is the latch after its `PRE`. -/
theorem doPre_latch_countAtHint (s : State) : (doPre s).latch = { s.latch with hic := countAtHint s } := by
  simp only [doPre_latch, countAtHint, ← atTop_iff]
  split <;> rfl

theorem doHint_trace (s : State) :
    (doHint s).trace =
      s.trace ++ if s.latch.hic = 0 ∧ s.io.hbie = true then [.cpuRaise .hblank] else [] := by
  have hcond : (hicUnderflow s && s.io.hbie) = true ↔ s.latch.hic = 0 ∧ s.io.hbie = true := by
    rw [Bool.and_eq_true, hicUnderflow, beq_iff_eq]
  rw [State.trace, doHint_log, State.trace]
  by_cases h : s.latch.hic = 0 ∧ s.io.hbie = true
  · rw [if_pos (hcond.2 h), if_pos h, List.reverse_cons]
  · rw [if_neg fun hc => h (hcond.1 hc), if_neg h, List.append_nil]

/-- What the dot loop and the fall-through make of the state after `PRE`: the state that `HINT` meets. -/
structure AtHint (s d : State) : Prop where
  ph : d.seq.ph = .hint
  trace : d.trace = s.trace ++ (preEvents s ++ (List.replicate (activeWidth s) (dotEvents s)).flatten)
  vdp : d.time.vdp = s.time.vdp + 1280
  vcounter : d.clock.vcounter = s.clock.vcounter
  field : d.clock.field = s.clock.field
  latch : d.latch = { s.latch with hic := countAtHint s }
  io : d.io = (doPre s).io
  irq : d.irq = (doPre s).irq

theorem exists_atHint {s : State} (hp : s.seq.ph = .pre) (hh : s.clock.hcounter = 0) (h : activeLine s = true) :
    ∃ m d, Path m s d ∧ m ≤ 2882 ∧ AtHint s d := by
  have hseq : (doPre s).seq.ph = .dot := by rw [doPre_seq, h]; rfl
  have hclock : (doPre s).clock.hcounter.toNat = 0 := by rw [doPre_clock, if_pos h, hh]; rfl
  have hwidth := activeWidth_mul_pixelWidth s
  have hle := activeWidth_le s
  obtain ⟨t, hloop, htp, hth⟩ :=
    segment_dotLoop (activeWidth s) (doPre s) hseq (by rw [hclock, pixelWidth_doPre, hwidth])
  rw [hclock, pixelWidth_doPre, hwidth] at hth
  rw [pixelWidth_doPre, hwidth, show dotEvents (doPre s) = dotEvents s by unfold dotEvents; rw [pixelWidth_doPre]]
    at hloop
  have hexit := segment_doDot htp
  rw [if_neg (by omega)] at hexit
  have hseg := hloop.trans hexit
  refine ⟨_, doDot t, (path_doPre hp).trans hseg.toPath, ?_, by rw [doDot_seq, if_neg (by omega)], ?_, ?_, ?_, ?_, ?_,
    hseg.io, hseg.irq⟩
  · have : activeWidth s * (1 + 2 * pixelWidth s) = activeWidth s + 2 * (activeWidth s * pixelWidth s) := by ring
    omega
  · rw [hseg.trace, doPre_trace, List.append_nil, List.append_assoc]
  · rw [hseg.vdp, doPre_time]
  · rw [hseg.vcounter, doPre_vcounter]
  · rw [hseg.field, doPre_field]
  · rw [hseg.latch, doPre_latch_countAtHint]

/-- An active line is `PRE`, the dot loop, `HINT` and 430 clocks. -/
theorem exists_lineEnd_of_active {s : State} (hp : s.seq.ph = .pre) (hh : s.clock.hcounter = 0)
    (h : activeLine s = true) : ∃ m e, Path m s e ∧ m < lineFuel ∧ LineEnd s e := by
  obtain ⟨m, d, hpath, hm, hd⟩ := exists_atHint hp hh h
  have hhic : d.latch.hic = countAtHint s := by rw [hd.latch]
  have hio : d.io.hic = s.io.hic ∧ d.io.hbie = s.io.hbie := by rw [hd.io, doPre_io]; exact ⟨rfl, rfl⟩
  have hunder : hicUnderflow d = decide (countAtHint s = 0) := by
    rw [← hhic]; rfl
  have hseq := doHint_seq d
  obtain ⟨e, hseg, heseq, -⟩ :=
    segment_step 430 (doHint d) (by rw [hseq]) (by rw [hseq]; decide) (by decide) (by simp [hseq])
  have hhint : Path 1 d (doHint d) := path_one (coopStep_of_hint d hd.ph) (by simp [hseq])
  refine ⟨_, e, Path.trans (Path.trans hpath hhint) hseg.toPath, by unfold lineFuel; omega, by rw [heseq, hseq]; rfl, ?_,
    ?_, ?_, ?_, ?_, ?_, ?_⟩
  · rw [hseg.trace, doHint_trace, hd.trace, hhic, hio.2, lineEvents_of_active h]
    simp only [List.append_assoc]
  · rw [hseg.vdp, doHint_time, hd.vdp]
  · rw [hseg.vcounter, doHint_clock, hd.vcounter]
  · rw [hseg.field, doHint_clock, hd.field]
  · rw [hseg.latch, doHint_latch, hunder, hhic, hio.1, hd.latch, hicAfterLine, if_pos h]
    simp only [decide_eq_true_eq]
  · rw [hseg.io, doHint_io, hd.io]
  · rw [hseg.irq, doHint_irq, hunder, hio.2, hd.irq, doPre_irq, hblankAfterLine, h, Bool.true_and]
    split <;> simp_all

theorem exists_lineEnd {s : State} (hs : AtLineStart s) : ∃ e, doLine s = doEnd e ∧ LineEnd s e := by
  obtain ⟨-, hp, hh, -⟩ := hs
  have hline : ∃ m e, Path m s e ∧ m < lineFuel ∧ LineEnd s e := by
    cases h : activeLine s
    · exact exists_lineEnd_of_blank hp h
    · exact exists_lineEnd_of_active hp hh h
  obtain ⟨m, e, hpath, hm, he⟩ := hline
  exact ⟨e, hpath.doLine hm he.ph, he⟩

/-! ### The line that starts in a state (R157, R160, R162) -/

theorem LineEnd.frameHeight {s e : State} (h : LineEnd s e) : frameHeight e = frameHeight s := by
  unfold Machine.frameHeight
  rw [h.latch, h.field]

theorem LineEnd.frameWraps {s e : State} (h : LineEnd s e) : frameWraps e = frameWraps s := by
  unfold Machine.frameWraps
  rw [h.frameHeight, h.vcounter]

/-- After `END`, as after `PRE`, comes a line start. -/
theorem atLineStart_doEnd {s : State} (h : s.powered = true) : AtLineStart (doEnd s) := by
  refine ⟨by simp [h], by rw [doEnd_seq], ?_, ?_⟩ <;> rw [doEnd_clock] <;> split <;> rfl

/-- What the line that starts in `s` leaves in `t`. -/
structure LineDone (s t : State) : Prop where
  start : AtLineStart t
  trace : t.trace = s.trace ++ lineEvents s
  vdp : t.time.vdp = s.time.vdp + 1710
  vcounter : t.clock.vcounter.toNat = if frameWraps s then 0 else s.clock.vcounter.toNat + 1
  field : t.clock.field = if frameWraps s then !s.clock.field else s.clock.field
  hic : t.latch.hic = hicAfterLine s
  overscan : t.latch.overscan = if frameWraps s then s.io.overscan else s.latch.overscan
  displayWidth : t.latch.displayWidth = s.io.displayWidth
  io : { t.io with vblankIRQ := s.io.vblankIRQ } = s.io
  irq : t.irq = ⟨hblankAfterLine s, (doPre s).irq.vblank, enteringBlank s⟩

theorem lineDone {s : State} (hs : AtLineStart s) : LineDone s (doLine s) := by
  obtain ⟨e, heq, he⟩ := exists_lineEnd hs
  have hpowered : e.powered = true := by
    have := hs.1
    rwa [← doLine_powered, heq, doEnd_powered] at this
  have hio : e.io.overscan = s.io.overscan ∧ e.io.displayWidth = s.io.displayWidth := by
    rw [he.io, doPre_io]; exact ⟨rfl, rfl⟩
  rw [heq]
  refine ⟨atLineStart_doEnd hpowered, ?_, by rw [doEnd_time, he.vdp], ?_, ?_, ?_, ?_, ?_, ?_, by rw [doEnd_irq, he.irq]⟩
  · rw [State.trace, doEnd_log]; exact he.trace
  · rw [doEnd_vcounter_toNat, he.frameWraps, he.vcounter]
  · rw [doEnd_clock, he.frameWraps, he.field]; split <;> rfl
  · rw [doEnd_latch, he.latch]
  · rw [doEnd_latch, he.frameWraps, hio.1, he.latch]
  · rw [doEnd_latch, hio.2]
  · rw [doEnd_io, he.io, doPre_io]

/-- Settles O45: `lineDone`, the wrap of the frame written out. -/
theorem lineBudgetAndEvents : Obligations.LineBudgetAndEvents := by
  unfold Obligations.LineBudgetAndEvents
  intro s hs
  have h := lineDone hs
  have hwrap (α : Type) (a b : α) : (if frameWraps s then a else b) =
      if frameHeight s ≤ s.clock.vcounter.toNat + 1 then a else b := by
    simp only [← frameWraps_iff]
  refine ⟨doLine s, exec_line_of_powered s hs.1, h.start, h.vdp, h.trace, ?_, ?_, ?_, h.displayWidth, doLine_runFrame s⟩
  · rw [h.vcounter, hwrap]; rfl
  · rw [h.field, hwrap]
  · rw [h.overscan, hwrap]

end Sys2Proof.Machine
end

section
/-! The frame run by `LINE` (R161), and in it the period law of the horizontal interrupt (R146) and the levels of the
vertical-blank line and of the audio signal (R147). -/

namespace Sys2Proof.Machine

open Sys2Proof.Spec

/-! ### The lines of a frame (R161) -/

/-- The state `t` stands at the start of line `v` of the frame that starts in `s`. -/
structure FrameAt (s : State) (v : Nat) (t : State) : Prop where
  start : AtLineStart t
  vcounter : t.clock.vcounter.toNat = v
  field : t.clock.field = s.clock.field
  overscan : t.latch.overscan = s.latch.overscan
  vdp : t.time.vdp = s.time.vdp + 1710 * v
  io : { t.io with vblankIRQ := s.io.vblankIRQ } = s.io

theorem FrameAt.screenHeight {s t : State} {v : Nat} (h : FrameAt s v t) : screenHeight t = screenHeight s := by
  unfold Machine.screenHeight
  rw [h.overscan]

theorem FrameAt.frameHeight {s t : State} {v : Nat} (h : FrameAt s v t) : frameHeight t = frameHeight s := by
  unfold Machine.frameHeight
  rw [h.overscan, h.field]

theorem FrameAt.frameWraps {s t : State} {v : Nat} (h : FrameAt s v t) :
    frameWraps t = decide (Machine.frameHeight s ≤ v + 1) := by
  unfold Machine.frameWraps
  rw [h.frameHeight, h.vcounter]

theorem FrameAt.doLine {s t : State} {v : Nat} (h : FrameAt s v t) (hv : v + 1 < Machine.frameHeight s) :
    FrameAt s (v + 1) (doLine t) := by
  have hline := lineDone h.start
  have hwrap : Machine.frameWraps t = false := by rw [h.frameWraps]; simpa using hv
  refine ⟨hline.start, ?_, ?_, ?_, ?_, ?_⟩
  · rw [hline.vcounter, hwrap, h.vcounter]; rfl
  · rw [hline.field, hwrap, h.field]; rfl
  · rw [hline.overscan, hwrap, h.overscan]; rfl
  · rw [hline.vdp, h.vdp]; ring
  · rw [← h.io, ← hline.io]

theorem frameAt_iterate {s : State} (hs : AtLineStart s) (h0 : s.clock.vcounter = 0) (v : Nat)
    (hv : v < frameHeight s) : FrameAt s v (doLine^[v] s) := by
  induction v with
  | zero => exact ⟨hs, by rw [Function.iterate_zero_apply, h0]; rfl, rfl, rfl, rfl, rfl⟩
  | succ v ih =>
    rw [Function.iterate_succ_apply']
    exact (ih (by omega)).doLine hv

theorem frameHeight_bounded (s : State) : 1 ≤ frameHeight s ∧ frameHeight s ≤ 65535 := by
  have hbounds := frameHeightOf_bounds s.clock.field s.latch.overscan
  unfold frameHeight
  omega

/-- The state after the whole frame. -/
structure FrameDone (s t : State) : Prop where
  start : AtLineStart t
  vcounter : t.clock.vcounter = 0
  field : t.clock.field = !s.clock.field
  overscan : t.latch.overscan = s.io.overscan
  vdp : t.time.vdp = s.time.vdp + 1710 * frameHeight s
  io : { t.io with vblankIRQ := s.io.vblankIRQ } = s.io

/-- The last line of the frame wraps. -/
theorem frameDone {s : State} (hs : AtLineStart s) (h0 : s.clock.vcounter = 0) :
    FrameDone s (doLine^[frameHeight s] s) := by
  obtain ⟨k, hk⟩ := Nat.exists_eq_add_of_le' (frameHeight_bounded s).1
  have hlast := frameAt_iterate hs h0 k (by omega)
  have hwrap : frameWraps (doLine^[k] s) = true := by rw [hlast.frameWraps, hk]; simp
  have hline := lineDone hlast.start
  rw [hk, Function.iterate_succ_apply']
  refine ⟨hline.start, BitVec.eq_of_toNat_eq (by rw [hline.vcounter, hwrap]; rfl), ?_, ?_, ?_, ?_⟩
  · rw [hline.field, hwrap, if_pos rfl, hlast.field]
  · rw [hline.overscan, hwrap, if_pos rfl, ← hlast.io]
  · rw [hline.vdp, hlast.vdp, hk]; ring
  · rw [← hlast.io, ← hline.io]

/-- `FRAME` runs the lines of the frame: no line before the last ends with `vcounter = 0`. -/
theorem frame_eq_lines {s : State} (hs : AtLineStart s) (h0 : s.clock.vcounter = 0) :
    frame s = .next (doLine^[frameHeight s] s) := by
  obtain ⟨hpos, hle⟩ := frameHeight_bounded s
  obtain ⟨k, hk⟩ := Nat.exists_eq_add_of_le' hpos
  have htop := (frameDone hs h0).vcounter
  rw [← lines_of_powered _ s hs.1, hk]
  refine runToTop_eq_lines 65536 k s hs.1 (by omega) (hk ▸ htop) fun j hj hzero => ?_
  have := (frameAt_iterate hs h0 (j + 1) (by omega)).vcounter
  rw [hzero] at this
  simp at this

/-- Settles O46: inside the frame by `FrameAt`, after it by `FrameDone`. -/
theorem frameLaw : Obligations.FrameLaw := by
  unfold Obligations.FrameLaw
  intro s hs h0
  have hdone := frameDone hs h0
  refine ⟨fun v hv => ?_, _, lines_of_powered _ s hs.1, frame_eq_lines hs h0, hdone.start, hdone.vcounter, hdone.field,
    hdone.overscan, hdone.vdp⟩
  have h := frameAt_iterate hs h0 v hv
  exact ⟨_, lines_of_powered v s hs.1, h.vcounter, h.field, h.overscan, h.vdp⟩

/-! ### The vertical-blank line and the audio signal (R147) -/

theorem vblank_iterate {s : State} (hs : AtLineStart s) (h0 : s.clock.vcounter = 0) (v : Nat) (hv : v < frameHeight s) :
    (doLine^[v + 1] s).irq.vblank = (s.io.vbie && decide (screenHeight s ≤ v)) := by
  have hat := frameAt_iterate hs h0 v hv
  have hvbie : (doLine^[v] s).io.vbie = s.io.vbie := by rw [← hat.io]
  rw [Function.iterate_succ_apply', (lineDone hat.start).irq]
  simp only [doPre_irq, hvbie]
  cases v with
  | zero =>
    have hlow := screenHeightOf_bounds s.latch.overscan
    have hpos : ¬ screenHeight s ≤ 0 := by unfold screenHeight; omega
    rw [if_pos ((atTop_iff _).2 hat.vcounter)]
    simp [hpos]
  | succ v =>
    have hnot : ¬ atTop (doLine^[v + 1] s) = true := by rw [atTop_iff, hat.vcounter]; omega
    have hblank : enteringBlank (doLine^[v + 1] s) = decide (screenHeight s = v + 1) := by
      rw [Bool.eq_iff_iff, enteringBlank_iff, hat.vcounter, hat.screenHeight, decide_eq_true_iff, eq_comm]
    have hor : (screenHeight s ≤ v + 1) ↔ screenHeight s = v + 1 ∨ screenHeight s ≤ v := by omega
    rw [if_neg hnot, vblank_iterate hs h0 v (by omega), hblank]
    simp only [hor, Bool.decide_or]
    cases s.io.vbie <;> simp

/-- Settles O29: the vertical-blank line by induction on the lines, the audio signal by the `PRE` of the line. -/
theorem vblankAndAudioLevels : Obligations.VblankAndAudioLevels := by
  unfold Obligations.VblankAndAudioLevels
  intro s v hs h0 hv
  have hat := frameAt_iterate hs h0 v hv
  refine ⟨doLine^[v + 1] s, lines_of_powered _ s hs.1, vblank_iterate hs h0 v hv, ?_⟩
  rw [Function.iterate_succ_apply', (lineDone hat.start).irq, Bool.eq_iff_iff, enteringBlank_iff, hat.vcounter,
    hat.screenHeight, decide_eq_true_iff]

/-! ### The period of the horizontal interrupt (R146) -/

theorem count_raises_clockPairs (n : Nat) : (clockPairs n).count (.cpuRaise .hblank) = 0 := by
  rw [List.count_eq_zero]
  simp [clockPairs, List.mem_flatten]

theorem count_raises_dots (k : Nat) (s : State) :
    (List.replicate k (dotEvents s)).flatten.count (.cpuRaise .hblank) = 0 := by
  have hpairs := List.count_eq_zero.1 (count_raises_clockPairs (pixelWidth s))
  rw [List.count_eq_zero, List.mem_flatten]
  rintro ⟨es, hes, hmem⟩
  rw [List.eq_of_mem_replicate hes] at hmem
  simp [dotEvents, hpairs] at hmem

/-- A line raises the horizontal-blank line at most once, and then leaves it high. -/
theorem count_raises_lineEvents (s : State) :
    (lineEvents s).count (.cpuRaise .hblank) = if hblankAfterLine s then 1 else 0 := by
  unfold hblankAfterLine
  cases h : activeLine s
  · rw [lineEvents_of_blank h, List.count_append, count_raises_preEvents, count_raises_clockPairs]
    simp
  · rw [lineEvents_of_active h]
    simp only [List.count_append, count_raises_preEvents, count_raises_dots, count_raises_clockPairs]
    by_cases hc : countAtHint s = 0 ∧ s.io.hbie = true
    · simp [hc]
    · rw [if_neg hc, if_neg (by simpa using hc)]
      rfl

theorem FrameAt.activeLine {s t : State} {v : Nat} (h : FrameAt s v t) (hv : v < Machine.screenHeight s) :
    activeLine t = true := by
  rw [activeLine_iff, h.vcounter, h.screenHeight]
  exact hv

/-- One active line counts down, or reloads at underflow: the arithmetic is `sub_succ_mod`. -/
theorem FrameAt.doLine_hic {s t : State} {v : Nat} (h : FrameAt s v t) (hv : v < Machine.screenHeight s)
    (hcount : (countAtHint t).toNat = s.io.hic.toNat - v % (s.io.hic.toNat + 1)) :
    (Machine.doLine t).latch.hic.toNat = s.io.hic.toNat - (v + 1) % (s.io.hic.toNat + 1) := by
  have hhic : t.io.hic = s.io.hic := by rw [← h.io]
  have hzero : countAtHint t = 0 ↔ s.io.hic.toNat - v % (s.io.hic.toNat + 1) = 0 := by
    rw [← hcount, BitVec.toNat_eq]; rfl
  rw [(lineDone h.start).hic, hicAfterLine, if_pos (h.activeLine hv), sub_succ_mod, hhic]
  simp only [hzero]
  split
  · rfl
  · rw [BitVec.toNat_sub_of_le (by rw [BitVec.le_def]; simp; omega), hcount]
    rfl

/-- The countdown at the `HINT` of active line `v`, by the period law. -/
theorem countAtHint_iterate {s : State} (hs : AtLineStart s) (h0 : s.clock.vcounter = 0) (v : Nat)
    (hv : v < screenHeight s) :
    (countAtHint (doLine^[v] s)).toNat = s.io.hic.toNat - v % (s.io.hic.toNat + 1) := by
  have hframe := screenHeight_lt_frameHeight s
  induction v with
  | zero => simp [countAtHint, h0]
  | succ v ih =>
    have hnext := (frameAt_iterate hs h0 (v + 1) (by omega)).vcounter
    rw [countAtHint, if_neg (by omega), Function.iterate_succ_apply']
    exact (frameAt_iterate hs h0 v (by omega)).doLine_hic (by omega) (ih (by omega))

/-- Active line `v` raises the horizontal-blank line exactly by the period law. -/
theorem hblankAfterLine_iterate {s : State} (hs : AtLineStart s) (h0 : s.clock.vcounter = 0) (v : Nat)
    (hv : v < screenHeight s) :
    hblankAfterLine (doLine^[v] s) = (s.io.hbie && decide (v % (s.io.hic.toNat + 1) = s.io.hic.toNat)) := by
  have hframe := screenHeight_lt_frameHeight s
  have hat := frameAt_iterate hs h0 v (by omega)
  have hlt : v % (s.io.hic.toNat + 1) < s.io.hic.toNat + 1 := Nat.mod_lt v (Nat.succ_pos _)
  have hzero : countAtHint (doLine^[v] s) = 0 ↔ v % (s.io.hic.toNat + 1) = s.io.hic.toNat := by
    rw [BitVec.toNat_eq, countAtHint_iterate hs h0 v hv]
    simp
    omega
  have hhbie : (doLine^[v] s).io.hbie = s.io.hbie := by rw [← hat.io]
  simp only [hblankAfterLine, hat.activeLine hv, hzero, hhbie, Bool.true_and, Bool.and_comm]

theorem succ_dvd_iff (k v : Nat) : k + 1 ∣ v + 1 ↔ v % (k + 1) = k := by
  have hlt : v % (k + 1) < k + 1 := Nat.mod_lt v (Nat.succ_pos k)
  have hlt' : (v + 1) % (k + 1) < k + 1 := Nat.mod_lt _ (Nat.succ_pos k)
  have hsub := sub_succ_mod k v
  rw [Nat.dvd_iff_mod_eq_zero]
  split at hsub <;> omega

/-- The raises up to the start of line `v`. -/
theorem count_raises_iterate {s : State} (hs : AtLineStart s) (h0 : s.clock.vcounter = 0) (v : Nat)
    (hv : v ≤ screenHeight s) :
    (doLine^[v] s).trace.count (.cpuRaise .hblank) =
      s.trace.count (.cpuRaise .hblank) + if s.io.hbie = true then v / (s.io.hic.toNat + 1) else 0 := by
  have hframe := screenHeight_lt_frameHeight s
  induction v with
  | zero => simp
  | succ v ih =>
    have hat := frameAt_iterate hs h0 v (by omega)
    rw [Function.iterate_succ_apply', (lineDone hat.start).trace, List.count_append, count_raises_lineEvents, ih (by omega),
      hblankAfterLine_iterate hs h0 v (by omega), Nat.succ_div]
    simp only [succ_dvd_iff]
    cases s.io.hbie <;> simp [Nat.add_assoc]

/-- Settles O26: the countdown at each `HINT` is the one of the period law, and only there is the line raised. -/
theorem hblankPeriod : Obligations.HblankPeriod := by
  unfold Obligations.HblankPeriod
  intro s v hs h0 hv
  have hframe := screenHeight_lt_frameHeight s
  have hat := frameAt_iterate hs h0 v (by omega)
  have hline := lineDone hat.start
  have hblank := hblankAfterLine_iterate hs h0 v hv
  refine ⟨doLine^[v] s, doLine^[v + 1] s, doLine^[screenHeight s] s, lines_of_powered _ s hs.1, lines_of_powered _ s hs.1,
    lines_of_powered _ s hs.1, ?_, ?_, ?_, count_raises_iterate hs h0 _ le_rfl⟩
  · rw [Function.iterate_succ_apply', hline.trace, List.count_append, count_raises_lineEvents, hblank]
    simp
  · rw [Function.iterate_succ_apply', hline.irq, hblank]
  · rw [Function.iterate_succ_apply']
    exact hat.doLine_hic hv (countAtHint_iterate hs h0 v hv)

end Sys2Proof.Machine
end

section
/-! The pseudo-operation `RUNTO` (R111): from every state the lines fall into a period of one frame of each field, within
the fuel of `RUNTO`. -/

namespace Sys2Proof.Machine

open Sys2Proof.Spec

/-! ### The second line of every run starts at a line start -/

/-- A `STEP` in progress does not return to `PRE`. -/
def StepLeavesPre (s : State) : Prop := s.stepping = true → s.seq.ret ≠ .pre

theorem stepLeavesPre_coopStep (s : State) (h : StepLeavesPre s) : StepLeavesPre (coopStep s) := by
  unfold StepLeavesPre State.stepping at *
  unfold coopStep
  cases hp : s.seq.ph with
  | pre => rw [doPre_seq]; split <;> simp
  | dot => rw [doDot_seq]; split <;> simp
  | hint => simp [doHint_seq]
  | tick => simpa [hp] using h
  | sync => exact fun _ => h (by simp [hp])
  | endLine => simp [doEnd_seq]

/-- Then `PRE` is entered by `END` alone. -/
theorem endLine_of_enters_pre {s : State} (h : StepLeavesPre s) (hp : (coopStep s).seq.ph = .pre) :
    s.seq.ph = .endLine := by
  cases hph : s.seq.ph with
  | endLine => rfl
  | pre => rw [coopStep_of_pre s hph, doPre_seq] at hp; split at hp <;> cases hp
  | dot => rw [coopStep_of_dot s hph, doDot_seq] at hp; split at hp <;> cases hp
  | hint => rw [coopStep_of_hint s hph, doHint_seq] at hp; cases hp
  | tick => rw [coopStep_of_tick s hph, doTick_seq] at hp; cases hp
  | sync =>
    have hret := h (by simp [State.stepping, hph])
    rw [coopStep_of_sync s hph, passBarrier_seq] at hp
    simp only [cooperate_seq] at hp
    split at hp
    · cases hp
    · cases hr : s.seq.ret <;> simp_all [Ret.phase]

theorem stepLeavesPre_iterate (k : Nat) (s : State) (h : StepLeavesPre s) : StepLeavesPre (coopStep^[k] s) := by
  induction k with
  | zero => exact h
  | succ k ih => rw [Function.iterate_succ_apply']; exact stepLeavesPre_coopStep _ ih

/-- From a `PRE`, whatever the counters, `LINE` ends at a line start. -/
theorem atLineStart_doLine {s : State} (hs : s.powered = true) (hp : s.seq.ph = .pre) : AtLineStart (doLine s) := by
  obtain ⟨k, heq, h1, -, hpre, -⟩ := doLine_eq_iterate s
  obtain ⟨m, rfl⟩ := Nat.exists_eq_add_of_le' h1
  have hleaves : StepLeavesPre (coopStep^[m] s) :=
    stepLeavesPre_iterate m s fun hstep => by simp [State.stepping, hp] at hstep
  rw [heq, Function.iterate_succ_apply'] at hpre
  have hend := endLine_of_enters_pre hleaves hpre
  have hdone : doLine s = doEnd (coopStep^[m] s) := by
    rw [heq, Function.iterate_succ_apply', coopStep_of_endLine _ hend]
  have hpowered : (coopStep^[m] s).powered = true := by
    rwa [← doLine_powered, hdone, doEnd_powered] at hs
  rw [hdone]
  exact atLineStart_doEnd hpowered

theorem doLine_pre (s : State) : (doLine s).seq.ph = .pre := by
  obtain ⟨-, -, -, -, hpre, -⟩ := doLine_eq_iterate s
  exact hpre

theorem atLineStart_second {s : State} (hs : s.powered = true) : AtLineStart (doLine (doLine s)) :=
  atLineStart_doLine (by rwa [doLine_powered]) (doLine_pre s)

/-! ### The lines repeat -/

/-- Two line starts from which the same lines follow. -/
structure SameLine (s t : State) : Prop where
  left : AtLineStart s
  right : AtLineStart t
  vcounter : s.clock.vcounter = t.clock.vcounter
  field : s.clock.field = t.clock.field
  latched : s.latch.overscan = t.latch.overscan
  configured : s.io.overscan = t.io.overscan

theorem LineDone.configured {s t : State} (h : LineDone s t) : t.io.overscan = s.io.overscan := by
  rw [← h.io]

theorem SameLine.doLine {s t : State} (h : SameLine s t) : SameLine (doLine s) (doLine t) := by
  have hs := lineDone h.left
  have ht := lineDone h.right
  have hwrap : frameWraps s = frameWraps t := by
    unfold frameWraps frameHeight; rw [h.vcounter, h.field, h.latched]
  refine ⟨hs.start, ht.start, BitVec.eq_of_toNat_eq ?_, ?_, ?_, ?_⟩
  · rw [hs.vcounter, ht.vcounter, hwrap, h.vcounter]
  · rw [hs.field, ht.field, hwrap, h.field]
  · rw [hs.overscan, ht.overscan, hwrap, h.latched, h.configured]
  · rw [hs.configured, ht.configured, h.configured]

theorem SameLine.iterate {s t : State} (h : SameLine s t) (n : Nat) : SameLine (Machine.doLine^[n] s) (Machine.doLine^[n] t) := by
  induction n with
  | zero => exact h
  | succ n ih => simp only [Function.iterate_succ_apply']; exact ih.doLine

theorem SameLine.standsAtLine {s t : State} (h : SameLine s t) (v : Counter) : standsAtLine v s = standsAtLine v t := by
  unfold Machine.standsAtLine
  rw [h.left.2.1, h.right.2.1, h.vcounter]

/-- The top of a frame whose height the configuration sets. -/
structure AtTop (s : State) : Prop where
  start : AtLineStart s
  vcounter : s.clock.vcounter = 0
  latched : s.latch.overscan = s.io.overscan

theorem FrameDone.atTop {s t : State} (h : FrameDone s t) : AtTop t :=
  ⟨h.start, h.vcounter, by rw [h.overscan, ← h.io]⟩

/-- The frame in progress ends within its lines. -/
theorem exists_atTop (m : Nat) (s : State) (hs : AtLineStart s) (hm : frameHeight s ≤ s.clock.vcounter.toNat + (m + 1)) :
    ∃ w, w ≤ m + 1 ∧ AtTop (doLine^[w] s) := by
  have hline := lineDone hs
  by_cases hwrap : frameWraps s = true
  · refine ⟨1, by omega, hline.start, BitVec.eq_of_toNat_eq (by rw [Function.iterate_one, hline.vcounter, hwrap]; rfl), ?_⟩
    rw [Function.iterate_one, hline.overscan, hwrap, hline.configured]
    rfl
  · have hframe : frameHeight (doLine s) = frameHeight s := by
      unfold frameHeight
      rw [hline.field, hline.overscan, if_neg hwrap, if_neg hwrap]
    have hv : (doLine s).clock.vcounter.toNat = s.clock.vcounter.toNat + 1 := by rw [hline.vcounter, if_neg hwrap]
    rw [frameWraps_iff] at hwrap
    cases m with
    | zero => omega
    | succ m =>
      obtain ⟨w, hw, htop⟩ := exists_atTop m (doLine s) hline.start (by omega)
      exact ⟨w + 1, by omega, htop⟩

/-- One frame of each field, and the lines are those of the first again. -/
theorem AtTop.period {s : State} (h : AtTop s) :
    ∃ p, 1 ≤ p ∧ p ≤ 131070 ∧ SameLine s (doLine^[p] s) := by
  have hfirst := frameDone h.start h.vcounter
  have hsecond := frameDone hfirst.start hfirst.vcounter
  have hb := frameHeight_bounded s
  have hb' := frameHeight_bounded (doLine^[frameHeight s] s)
  rw [← Function.iterate_add_apply] at hsecond
  have hio : (doLine^[frameHeight s] s).io.overscan = s.io.overscan := by rw [← hfirst.io]
  refine ⟨_, ?_, ?_, h.start, hsecond.start, ?_, ?_, ?_, ?_⟩
  · omega
  · omega
  · rw [h.vcounter, hsecond.vcounter]
  · rw [hsecond.field, hfirst.field, Bool.not_not]
  · rw [h.latched, hsecond.overscan, hio]
  · rw [← hio, ← hsecond.io]

/-- From every powered state the lines repeat with a period `p` after `b` of them. -/
theorem exists_period {s : State} (hs : s.powered = true) :
    ∃ b p, 1 ≤ p ∧ b + p ≤ 262144 ∧ ∀ n, b ≤ n → SameLine (doLine^[n] s) (doLine^[n + p] s) := by
  have hstart := atLineStart_second hs
  obtain ⟨w, hw, htop⟩ := exists_atTop 65535 _ hstart
    (by have := frameHeight_bounded (doLine (doLine s)); omega)
  obtain ⟨p, hpos, hp, hsame⟩ := htop.period
  have hreach : doLine^[w] (doLine (doLine s)) = doLine^[w + 2] s := rfl
  refine ⟨w + 2, p, hpos, by omega, fun n hn => ?_⟩
  obtain ⟨i, rfl⟩ := Nat.exists_eq_add_of_le' hn
  have h := hsame.iterate i
  rwa [← Function.iterate_add_apply, hreach, ← Function.iterate_add_apply, ← Function.iterate_add_apply,
    show i + p + (w + 2) = i + (w + 2) + p by omega] at h

/-- The first line start at `v` comes within the fuel of `RUNTO`. -/
theorem first_stands_within_fuel {s : State} {v : Counter} {n : Nat} (hs : s.powered = true)
    (hn : standsAtLine v (doLine^[n] s) = true) (hfirst : ∀ j, j < n → standsAtLine v (doLine^[j] s) = false) :
    n ≤ 262144 := by
  obtain ⟨b, p, hpos, hfuel, hsame⟩ := exists_period hs
  by_contra hlate
  have h := (hsame (n - p) (by omega)).standsAtLine v
  rw [Nat.sub_add_cancel (by omega), hn, hfirst (n - p) (by omega)] at h
  cases h

/-- Settles O21: the first such line comes within the fuel, for the lines repeat with a period below it. -/
theorem runToFindsTheLine : Obligations.RunToFindsTheLine := by
  unfold Obligations.RunToFindsTheLine
  intro v s t hs
  have hlines (n : Nat) (u : State) : LinesTo n s u ↔ u = doLine^[n] s := by
    rw [LinesTo, lines_of_powered n s hs]
    exact ⟨fun h => by cases h; rfl, fun h => by rw [h]⟩
  have hstands (u : State) : standsAtLine v u = true ↔ u.seq.ph = .pre ∧ u.clock.vcounter = v := by
    simp [standsAtLine]
  rw [runTo, runToLine_eq_lines v _ s hs]
  simp only [hlines, ← hstands, Bool.not_eq_true]
  constructor
  · rintro ⟨n, -, ht, hn, hfirst⟩
    cases ht
    obtain ⟨hp, hv⟩ := (hstands _).1 hn
    exact ⟨n, rfl, hp, hv, fun m hm u hu => by rw [hu]; exact hfirst m hm⟩
  · rintro ⟨n, rfl, hp, hv, hfirst⟩
    have hn := (hstands _).2 ⟨hp, hv⟩
    have hfirst' : ∀ j, j < n → standsAtLine v (doLine^[j] s) = false := fun j hj => hfirst j hj _ rfl
    exact ⟨n, first_stands_within_fuel hs hn hfirst', rfl, hn, hfirst'⟩

end Sys2Proof.Machine
end

section
/-! Noninterference: what is in the memories does not affect the engine (R75), nor do the two mode bits of the configuration
the line in progress (R222, R223). -/

namespace Sys2Proof.Machine

open Sys2Proof.Spec

/-! ### Alike but for the memories and the modes of the configuration -/

/-- The state with other memories and other mode bits in `io`. -/
def altered (st : Stores) (p : Pixels) (o w : Bool) (s : State) : State :=
  { s with stores := st, outbuf := p, io := { s.io with overscan := o, displayWidth := w } }

/-- The state `t` is `s` with other memories, and with the mode bits `o` and `w` in `io`. -/
def Alike (o w : Bool) (s t : State) : Prop := ∃ st p, t = altered st p o w s

theorem Alike.ite {o w b b' : Bool} {s s' t t' : State} (hb : b' = b) (h : Alike o w s s') (h' : Alike o w t t') :
    Alike o w (if b then s else t) (if b' then s' else t') := by
  rw [hb]
  cases b <;> assumption

section
variable {o w : Bool} {s t : State}

theorem Alike.emit (h : Alike o w s t) (e : Event) : Alike o w (emit e s) (emit e t) := by
  obtain ⟨st, p, rfl⟩ := h
  exact ⟨st, p, rfl⟩

theorem Alike.renderCall (h : Alike o w s t) : Alike o w (renderCall s) (renderCall t) := by
  obtain ⟨st, p, rfl⟩ := h
  exact ⟨_, _, rfl⟩

theorem Alike.setPhase (h : Alike o w s t) (q : Phase) : Alike o w (setPhase q s) (setPhase q t) := by
  obtain ⟨st, p, rfl⟩ := h
  exact ⟨st, p, rfl⟩

theorem Alike.enterStep (h : Alike o w s t) (n : Clocks) (r : Ret) : Alike o w (enterStep n r s) (enterStep n r t) := by
  obtain ⟨st, p, rfl⟩ := h
  exact ⟨st, p, rfl⟩

theorem Alike.setApuInt (h : Alike o w s t) (b : Bool) : Alike o w (setApuInt b s) (setApuInt b t) := by
  obtain ⟨st, p, rfl⟩ := h
  exact ⟨st, p, rfl⟩

theorem Alike.raiseLine (h : Alike o w s t) (k : IrqKind) : Alike o w (raiseLine k s) (raiseLine k t) := by
  obtain ⟨st, p, rfl⟩ := h
  exact ⟨st, p, rfl⟩

theorem Alike.lowerLine (h : Alike o w s t) (k : IrqKind) : Alike o w (lowerLine k s) (lowerLine k t) := by
  obtain ⟨st, p, rfl⟩ := h
  exact ⟨st, p, rfl⟩

theorem Alike.setVblankFlag (h : Alike o w s t) (b : Bool) : Alike o w (setVblankFlag b s) (setVblankFlag b t) := by
  obtain ⟨st, p, rfl⟩ := h
  exact ⟨st, p, rfl⟩

theorem Alike.cooperate (h : Alike o w s t) : Alike o w (cooperate s) (cooperate t) := by
  obtain ⟨st, p, rfl⟩ := h
  exact ⟨st, p, rfl⟩

theorem Alike.passBarrier (h : Alike o w s t) : Alike o w (passBarrier s) (passBarrier t) := by
  obtain ⟨st, p, rfl⟩ := h
  exact ⟨st, p, rfl⟩

theorem Alike.doTick (h : Alike o w s t) : Alike o w (doTick s) (doTick t) := by
  obtain ⟨st, p, rfl⟩ := h
  exact ⟨_, _, rfl⟩

/-! What the detectors read is alike. -/

theorem Alike.seq (h : Alike o w s t) : t.seq = s.seq := by
  obtain ⟨st, p, rfl⟩ := h
  rfl

theorem Alike.clock (h : Alike o w s t) : t.clock = s.clock := by
  obtain ⟨st, p, rfl⟩ := h
  rfl

theorem Alike.latch (h : Alike o w s t) : t.latch = s.latch := by
  obtain ⟨st, p, rfl⟩ := h
  rfl

theorem Alike.vbie (h : Alike o w s t) : t.io.vbie = s.io.vbie := by
  obtain ⟨st, p, rfl⟩ := h
  rfl

theorem Alike.hbie (h : Alike o w s t) : t.io.hbie = s.io.hbie := by
  obtain ⟨st, p, rfl⟩ := h
  rfl

theorem Alike.activeLine (h : Alike o w s t) : activeLine t = activeLine s := by
  unfold Machine.activeLine screenHeight
  rw [h.clock, h.latch]

theorem Alike.atTop (h : Alike o w s t) : atTop t = atTop s := by
  unfold Machine.atTop
  rw [h.clock]

theorem Alike.enteringBlank (h : Alike o w s t) : enteringBlank t = enteringBlank s := by
  unfold Machine.enteringBlank screenHeight
  rw [h.clock, h.latch]

theorem Alike.hicUnderflow (h : Alike o w s t) : hicUnderflow t = hicUnderflow s := by
  unfold Machine.hicUnderflow
  rw [h.latch]

theorem Alike.pixelWidth (h : Alike o w s t) : pixelWidth t = pixelWidth s := by
  unfold Machine.pixelWidth
  rw [h.latch]

theorem Alike.frameWraps (h : Alike o w s t) : frameWraps t = frameWraps s := by
  unfold Machine.frameWraps frameHeight
  rw [h.clock, h.latch]

theorem Alike.barrierOpen (h : Alike o w s t) : barrierOpen t = barrierOpen s := by
  obtain ⟨st, p, rfl⟩ := h
  rfl

/-! ### Every micro-operation but `END` keeps states alike -/

theorem Alike.reloadHic (h : Alike o w s t) :
    Alike o w { s with latch := { s.latch with hic := s.io.hic } } { t with latch := { t.latch with hic := t.io.hic } } := by
  obtain ⟨st, p, rfl⟩ := h
  exact ⟨st, p, rfl⟩

theorem Alike.decrementHic (h : Alike o w s t) :
    Alike o w { s with latch := { s.latch with hic := s.latch.hic - 1 } }
      { t with latch := { t.latch with hic := t.latch.hic - 1 } } := by
  obtain ⟨st, p, rfl⟩ := h
  exact ⟨st, p, rfl⟩

theorem Alike.preHook (h : Alike o w s t) : Alike o w (preHook s) (preHook t) := by
  unfold Machine.preHook
  rw [h.clock]
  exact .ite h.activeLine (h.emit _).renderCall h

theorem Alike.prePulse (h : Alike o w s t) : Alike o w (prePulse s) (prePulse t) :=
  (h.lowerLine _).setApuInt _

theorem Alike.preTop (h : Alike o w s t) : Alike o w (preTop s) (preTop t) :=
  .ite h.atTop ((h.reloadHic.setVblankFlag _).lowerLine _) h

theorem Alike.raiseVblank (h : Alike o w s t) : Alike o w (raiseVblank s) (raiseVblank t) :=
  .ite h.vbie ((h.setVblankFlag _).raiseLine _) h

theorem Alike.preBlanking (h : Alike o w s t) : Alike o w (preBlanking s) (preBlanking t) :=
  .ite h.enteringBlank (h.raiseVblank.setApuInt _) h

theorem Alike.preDispatch (h : Alike o w s t) : Alike o w (preDispatch s) (preDispatch t) :=
  .ite h.activeLine (h.setPhase _) (h.enterStep _ _)

theorem Alike.doPre (h : Alike o w s t) : Alike o w (doPre s) (doPre t) :=
  h.preHook.prePulse.preTop.preBlanking.preDispatch

theorem Alike.hintCount (h : Alike o w s t) : Alike o w (hintCount s) (hintCount t) :=
  .ite h.hicUnderflow (.ite h.hbie (h.reloadHic.raiseLine _) h.reloadHic) h.decrementHic

theorem Alike.doHint (h : Alike o w s t) : Alike o w (doHint s) (doHint t) :=
  h.hintCount.enterStep _ _

theorem Alike.countDot (h : Alike o w s t) :
    Alike o w { s with clock := { s.clock with hdot := addCounter s.clock.hdot 1 } }
      { t with clock := { t.clock with hdot := addCounter t.clock.hdot 1 } } := by
  obtain ⟨st, p, rfl⟩ := h
  exact ⟨st, p, rfl⟩

theorem Alike.dotPass (h : Alike o w s t) : Alike o w (dotPass s) (dotPass t) := by
  have hcount := (h.emit .renderRun).renderCall.countDot
  have hwidth := hcount.pixelWidth
  unfold Machine.dotPass
  simp only [hwidth]
  exact hcount.enterStep _ _

theorem Alike.doDot (h : Alike o w s t) : Alike o w (doDot s) (doDot t) := by
  unfold Machine.doDot
  rw [h.clock]
  split
  · exact h.dotPass
  · exact h.setPhase _

theorem Alike.doSync (h : Alike o w s t) : Alike o w (doSync s) (doSync t) :=
  .ite h.barrierOpen h.passBarrier h

/-- Only `END` reads the mode bits of the configuration (R158, R159). -/
theorem Alike.microOp (h : Alike o w s t) {i : Instr} (hi : i ≠ .endLine) : Alike o w (microOp i s) (microOp i t) := by
  cases i with
  | endLine => exact absurd rfl hi
  | pre => exact h.doPre
  | dot => exact h.doDot
  | hint => exact h.doHint
  | tick => exact h.doTick
  | sync => exact h.doSync
  | step n =>
    simp only [Machine.microOp, h.seq]
    exact h.enterStep n _
  | tail => exact h.enterStep _ _
  | blank => exact h.enterStep _ _
  | _ => exact h

end

/-! ### Run control on related states -/

theorem runToPre_related {R : State → State → Prop} (hstep : ∀ s t, R s t → R (coopStep s) (coopStep t))
    (hseq : ∀ s t, R s t → t.seq = s.seq) (k : Nat) (s t : State) (h : R s t) : R (runToPre k s) (runToPre k t) := by
  induction k generalizing s t with
  | zero => exact h
  | succ k ih =>
    have hnext := hstep s t h
    simp only [runToPre, hseq _ _ hnext]
    split
    · exact hnext
    · exact ih _ _ hnext

theorem runToTick_related {R : State → State → Prop} (hstep : ∀ s t, R s t → R (coopStep s) (coopStep t))
    (hseq : ∀ s t, R s t → t.seq = s.seq) (k : Nat) (s t : State) (h : R s t) : R (runToTick k s) (runToTick k t) := by
  induction k generalizing s t with
  | zero => exact h
  | succ k ih =>
    have hnext := hstep s t h
    simp only [runToTick, hseq _ _ h]
    split
    · next hp =>
      rwa [coopStep_of_tick s hp, coopStep_of_tick t (by rwa [hseq _ _ h])] at hnext
    · exact ih _ _ hnext

theorem runTicks_related {R : State → State → Prop} (hstep : ∀ s t, R s t → R (coopStep s) (coopStep t))
    (hseq : ∀ s t, R s t → t.seq = s.seq) (n : Nat) (s t : State) (h : R s t) : R (runTicks n s) (runTicks n t) := by
  induction n generalizing s t with
  | zero => exact h
  | succ n ih => exact ih _ _ (runToTick_related hstep hseq tickFuel s t h)

/-! ### The memories do not affect the engine (R75) -/

/-- The state `t` is `s` but for the memories. -/
def SameRegisters (s t : State) : Prop := Alike s.io.overscan s.io.displayWidth s t

theorem microOp_io_modes (i : Instr) (s : State) :
    (microOp i s).io.overscan = s.io.overscan ∧ (microOp i s).io.displayWidth = s.io.displayWidth := by
  have h := microOp_io_but_flag i s false
  simp only [Io.mk.injEq] at h
  obtain ⟨-, -, -, -, hoverscan, hwidth⟩ := h
  exact ⟨hoverscan, hwidth⟩

theorem SameRegisters.doEnd {s t : State} (h : SameRegisters s t) : SameRegisters (doEnd s) (doEnd t) := by
  have hwrap : Machine.frameWraps (endCounters t) = Machine.frameWraps (endCounters s) := h.frameWraps
  obtain ⟨st, p, rfl⟩ := h
  unfold SameRegisters Machine.doEnd endAdvance
  rw [hwrap]
  split <;> exact ⟨st, p, rfl⟩

theorem SameRegisters.microOp {s t : State} (h : SameRegisters s t) (i : Instr) :
    SameRegisters (microOp i s) (microOp i t) := by
  by_cases hi : i = .endLine
  · subst hi
    exact h.doEnd
  · obtain ⟨hoverscan, hwidth⟩ := microOp_io_modes i s
    unfold SameRegisters
    rw [hoverscan, hwidth]
    exact Alike.microOp h hi

theorem SameRegisters.coopStep {s t : State} (h : SameRegisters s t) : SameRegisters (coopStep s) (coopStep t) := by
  simp only [coopStep_eq_microOp, Alike.seq h]
  split
  · exact SameRegisters.microOp (Alike.cooperate h) _
  · exact h.microOp _

theorem SameRegisters.powered {s t : State} (h : SameRegisters s t) : t.powered = s.powered := by
  obtain ⟨st, p, rfl⟩ := h
  rfl

theorem SameRegisters.runTicks {s t : State} (h : SameRegisters s t) (n : Nat) :
    SameRegisters (runTicks n s) (runTicks n t) :=
  runTicks_related (R := SameRegisters) (fun _ _ h => h.coopStep) (fun _ _ h => Alike.seq h) n s t h

theorem SameRegisters.doLine {s t : State} (h : SameRegisters s t) : SameRegisters (doLine s) (doLine t) :=
  runToPre_related (R := SameRegisters) (fun _ _ h => h.coopStep) (fun _ _ h => Alike.seq h) lineFuel s t h

/-- Every operation of the engine and of run control completes alike whatever the memories hold. -/
theorem SameRegisters.exec {i : Instr} {s s' t : State} (h : SameRegisters s s')
    (hi : i.agent = .engine ∨ i.agent = .runControl) (he : exec i s = .next t) :
    ∃ u, Machine.exec i s' = .next u ∧ SameRegisters t u := by
  obtain hi | hi := hi
  · rw [exec_of_engine i s hi] at he
    have hs := ((whenPowered_next s t _).1 he).1
    rw [exec_of_engine i s' hi, whenPowered_of_powered _ _ (h.powered.trans hs), eq_of_whenPowered_next he]
    exact ⟨_, rfl, h.microOp i⟩
  · cases i with
    | line =>
      have hs := ((whenPowered_next s t _).1 he).1
      rw [eq_of_whenPowered_next he]
      exact ⟨_, exec_line_of_powered s' (h.powered.trans hs), h.doLine⟩
    | run n =>
      obtain ⟨hs, hn⟩ := (whenPowered_next s t _).1 he
      have hn0 : n ≠ 0 := by rintro rfl; cases hn
      rw [eq_of_exec_run he]
      refine ⟨_, ?_, h.runTicks n.toNat⟩
      simp only [Machine.exec, execRun, if_neg hn0, whenPowered_of_powered _ _ (h.powered.trans hs)]
    | _ => simp [Instr.agent] at hi

/-- Settles O18: `SameRegisters` is kept by every micro-operation, so by run control. -/
theorem storesDoNotAffectTheEngine : Obligations.StoresDoNotAffectTheEngine := by
  unfold Obligations.StoresDoNotAffectTheEngine
  intro i s t st p hi he
  have hsame : SameRegisters s { s with stores := st, outbuf := p } := ⟨st, p, rfl⟩
  obtain ⟨u, hu, st', p', rfl⟩ := hsame.exec hi he
  exact ⟨_, hu, rfl⟩

/-! ### The mode bits do not affect the line in progress (R222, R223) -/

/-- What the line in progress leaves alike: all but the two mode latches, and the overscan latch too inside the frame. -/
structure SameLineEnd (s t : State) : Prop where
  trace : t.trace = s.trace
  clock : t.clock = s.clock
  irq : t.irq = s.irq
  seq : t.seq = s.seq
  time : t.time = s.time
  hic : t.latch.hic = s.latch.hic
  overscan : s.clock.vcounter ≠ 0 → t.latch.overscan = s.latch.overscan

theorem Alike.sameLineEnd {o w : Bool} {s t : State} (h : Alike o w s t) : SameLineEnd s t := by
  obtain ⟨st, p, rfl⟩ := h
  exact ⟨rfl, rfl, rfl, rfl, rfl, rfl, fun _ => rfl⟩

theorem Alike.doEnd {o w : Bool} {s t : State} (h : Alike o w s t) : SameLineEnd (doEnd s) (doEnd t) := by
  have hsame := h.sameLineEnd
  have hlog : t.log = s.log := by
    obtain ⟨st, p, rfl⟩ := h
    rfl
  refine ⟨by simp [State.trace, hlog], ?_, ?_, ?_, ?_, ?_, fun hv => ?_⟩
  · simp only [doEnd_clock, h.frameWraps, h.clock]
  · simp only [doEnd_irq, hsame.irq]
  · simp only [doEnd_seq, h.seq]
  · simp only [doEnd_time, hsame.time]
  · simp only [doEnd_latch, h.latch]
  · have hwrap : ¬ Machine.frameWraps s = true := fun hw => hv (by rw [doEnd_clock, if_pos hw])
    simp only [doEnd_latch, h.frameWraps, if_neg hwrap, h.latch]

theorem Alike.coopStep {o w : Bool} {s t : State} (h : Alike o w s t) (hp : s.seq.ph ≠ .endLine) :
    Alike o w (coopStep s) (coopStep t) := by
  have hi : s.seq.ph.instr ≠ .endLine := by
    cases hph : s.seq.ph <;> simp_all [Phase.instr]
  simp only [coopStep_eq_microOp, h.seq]
  split
  · exact h.cooperate.microOp hi
  · exact h.microOp hi

/-- Alike states run alike to the `END`, and `END` enters `PRE`. -/
theorem runToPre_sameLineEnd {o w : Bool} (k : Nat) (s t : State) (h : Alike o w s t) :
    SameLineEnd (runToPre k s) (runToPre k t) := by
  induction k generalizing s t with
  | zero => exact h.sameLineEnd
  | succ k ih =>
    by_cases hp : s.seq.ph = .endLine
    · have hp' : t.seq.ph = .endLine := by rwa [h.seq]
      simp only [runToPre, coopStep_of_endLine _ hp, coopStep_of_endLine _ hp', doEnd_seq, if_true]
      exact h.doEnd
    · have hnext := h.coopStep hp
      simp only [runToPre, hnext.seq]
      split
      · exact hnext.sameLineEnd
      · exact ih _ _ hnext

/-- Settles O22: up to the `END` the two runs stay `Alike`, and of `END` the mode bits reach the two mode latches alone. -/
theorem modeWriteSparesTheLineInProgress : Obligations.ModeWriteSparesTheLineInProgress := by
  unfold Obligations.ModeWriteSparesTheLineInProgress
  intro s o w t u ht hu
  have hsame : Alike o w s { s with io := { s.io with overscan := o, displayWidth := w } } :=
    ⟨s.stores, s.outbuf, rfl⟩
  have h := runToPre_sameLineEnd lineFuel _ _ hsame
  rw [eq_of_whenPowered_next ht, eq_of_whenPowered_next hu]
  exact ⟨h.trace, h.clock, h.irq, h.seq, h.time, h.hic, h.overscan⟩

end Sys2Proof.Machine
end
